-- ==== Sys2Proof/Word.lean ====
section
/-! DEFINITION. The plain types of the unit: 32-bit words, octets, register numbers. -/

namespace Sys2Proof

/-- A 32-bit quantity: a general register, a CSR, a command word (00_scope.md R7: `XLEN`, `CMDLEN`). -/
abbrev Word := BitVec 32

/-- An octet (00_scope.md R6). -/
abbrev Byte := BitVec 8

/-- A general-register number, 0 to 15 (10_state.md R31; 30_encoding.md R80). -/
abbrev Reg := Fin 16

end Sys2Proof
end

