-- ==== Sys2Proof/Config.lean ====
section
/-! DEFINITION. The parameters of 00_scope.md R7 and the model's free values. -/

namespace Sys2Proof

/-- The modes of `D9_ROUND` (00_scope.md R7; 46_dpt9.md R226). -/
inductive Rounding where
  | nearestAway
  | nearestEven
  | towardZero
deriving DecidableEq, Repr

/-- The two open parameters of 00_scope.md R7. They are fixed for a run: no step changes them. State holds
them, so that a statement about every state is a statement about every legal value (log entries 4, 5). -/
structure Config where
  /-- `FB_BYTES`: the size of the frame buffer in octets. -/
  fbBytes : Nat
  /-- `D9_ROUND`: the rounding of the DPT9 mantissa. -/
  d9Round : Rounding
deriving DecidableEq, Repr

namespace Config

/-- The values the spec suggests: `FB_BYTES` 256, `D9_ROUND` nearest_away (R7).
DESIGN CHOICE for `State.reset` only (log entries 4, 5). -/
def suggested : Config := { fbBytes := 256, d9Round := .nearestAway }

/-- `16 <= FB_BYTES <= 65536` (R7). -/
abbrev legal (c : Config) : Prop := 16 ≤ c.fbBytes ∧ c.fbBytes ≤ 65536

/-- The FREE VALUE the host port returns for a general register not written since reset: "`any value` in
[0, 2^32)" (93_implementation_defined.md U3; log entry 10). Applied to State's counter of free values. -/
opaque freeHostRead : Nat → Word

end Config

end Sys2Proof
end

