-- ==== Sys2Proof/Syntax.lean ====
section
/-! DEFINITION. The commands: one constructor per row of the opcode table (30_encoding.md R83, R84, R85). -/

namespace Sys2Proof

/-- The thirteen datapoint types of 47_dpt_general.md R250, the closed set R280 asks for. -/
inductive Dpt where
  | bool        -- selector 1
  | dimming     -- selector 3
  | unsigned8   -- selector 5
  | signed8     -- selector 6
  | unsigned16  -- selector 7
  | signed16    -- selector 8
  | float16     -- selector 9
  | time        -- selector 10
  | date        -- selector 11
  | unsigned32  -- selector 12
  | signed32    -- selector 13
  | float32     -- selector 14
  | rgb         -- selector 232
deriving DecidableEq, Repr

/-- The commands of the unit. Operands stand in the order of the assembler syntax (30_encoding.md R83, R90). -/
inductive Instr where
  -- system (40_system_and_buffer.md)
  | nop
  | li (rd : Reg) (imm : Byte)
  | csrrLasterr (rd : Reg)
  | csrrFaults (rd : Reg)
  | csrrErrcmd (rd : Reg)
  | csrrFlen (rd : Reg)
  | csrrRkind (rd : Reg)
  | csrrRlen (rd : Reg)
  | csrwFaults (ra : Reg)
  | csrwFlen (ra : Reg)
  -- frame-buffer loads and stores (40_system_and_buffer.md)
  | ldo (rd ra : Reg) (imm : Byte)
  | ld16 (rd ra : Reg) (imm : Byte)
  | ld32 (rd ra : Reg) (imm : Byte)
  | sto (rb ra : Reg) (imm : Byte)
  | st16 (rb ra : Reg) (imm : Byte)
  | st32 (rb ra : Reg) (imm : Byte)
  -- bit fields (41_bitfield.md)
  | bfGet (rd ra : Reg) (hi lo : Fin 8)
  | bfSet (rd ra rb : Reg) (hi lo : Fin 8)
  -- control field (42_control_field.md)
  | cfGft (rd ra : Reg)
  | cfGrp (rd ra : Reg)
  | cfGpr (rd ra : Reg)
  | cfGtt (rd ra : Reg)
  | cfSft (rd ra rb : Reg)
  | cfSrp (rd ra rb : Reg)
  | cfSpr (rd ra rb : Reg)
  | cfStt (rd ra rb : Reg)
  -- extended control field (43_extended_control_field.md)
  | ecfGat (rd ra : Reg)
  | ecfGhc (rd ra : Reg)
  | ecfGef (rd ra : Reg)
  | ecfSat (rd ra rb : Reg)
  | ecfShc (rd ra rb : Reg)
  | ecfSef (rd ra rb : Reg)
  -- addresses (44_address.md)
  | adPki (rd ra rb rc : Reg)
  | adPk2 (rd ra rb : Reg)
  | adPk3 (rd ra rb rc : Reg)
  | adGetIndArea (rd ra : Reg)
  | adGetIndLine (rd ra : Reg)
  | adGetIndDev (rd ra : Reg)
  | adGetG2Main (rd ra : Reg)
  | adGetG2Sub (rd ra : Reg)
  | adGetG3Main (rd ra : Reg)
  | adGetG3Mid (rd ra : Reg)
  | adGetG3Sub (rd ra : Reg)
  -- APDU framing (45_apdu.md)
  | apDlen (rd ra rb : Reg)
  | apWr (ra rb rc : Reg)
  | apRd (rd ra rb rc : Reg)
  -- DPT9 (46_dpt9.md)
  | d9Dec (rd ra : Reg)
  | d9Encf (rd ra : Reg)
  | d9Encc (rd ra : Reg)
  -- datapoint types, encode (47_dpt_general.md)
  | dptEnc1 (rd ra rb : Reg)
  | dptEnc3 (rd ra rb : Reg)
  | dptEnc5 (rd ra rb : Reg)
  | dptEnc6 (rd ra rb : Reg)
  | dptEnc7 (rd ra rb : Reg)
  | dptEnc8 (rd ra rb : Reg)
  | dptEnc9 (rd ra rb : Reg)
  | dptEnc10 (rd ra rb : Reg)
  | dptEnc11 (rd ra rb : Reg)
  | dptEnc12 (rd ra rb : Reg)
  | dptEnc13 (rd ra rb : Reg)
  | dptEnc14 (rd ra rb : Reg)
  | dptEnc232 (rd ra rb : Reg)
  | dptEncOther (rd ra rb : Reg) (sel : Byte)
  -- datapoint types, decode (47_dpt_general.md)
  | dptDec1 (rd ra rb : Reg)
  | dptDec3 (rd ra rb : Reg)
  | dptDec5 (rd ra rb : Reg)
  | dptDec6 (rd ra rb : Reg)
  | dptDec7 (rd ra rb : Reg)
  | dptDec8 (rd ra rb : Reg)
  | dptDec9 (rd ra rb : Reg)
  | dptDec10 (rd ra rb : Reg)
  | dptDec11 (rd ra rb : Reg)
  | dptDec12 (rd ra rb : Reg)
  | dptDec13 (rd ra rb : Reg)
  | dptDec14 (rd ra rb : Reg)
  | dptDec232 (rd ra rb : Reg)
  | dptDecOther (rd ra rb : Reg) (sel : Byte)
deriving DecidableEq, Repr

end Sys2Proof
end

