-- ==== Sys2Proof/WellFormed.lean ====
section
/-! DEFINITION. Which terms of Instr are legal commands (30_encoding.md R82, R85, R87). -/

namespace Sys2Proof

/-- The thirteen defined selectors (30_encoding.md R85; 47_dpt_general.md R250). -/
def definedSelectors : List Nat := [1, 3, 5, 6, 7, 8, 9, 10, 11, 12, 13, 14, 232]

/-- A well-formed command: a bit range has `hi >= lo` (R82, R87 (c)); the two rows for every other selector
hold no defined selector (the note of their rows in opcode_table.json). The other operands are legal by
their types. -/
def Instr.wf : Instr → Bool
  | .bfGet _ _ hi lo => decide (lo ≤ hi)
  | .bfSet _ _ _ hi lo => decide (lo ≤ hi)
  | .dptEncOther _ _ _ sel => !(definedSelectors.contains sel.toNat)
  | .dptDecOther _ _ _ sel => !(definedSelectors.contains sel.toNat)
  | .nop | .li .. | .csrrLasterr .. | .csrrFaults .. | .csrrErrcmd .. | .csrrFlen .. | .csrrRkind ..
  | .csrrRlen .. | .csrwFaults .. | .csrwFlen .. | .ldo .. | .ld16 .. | .ld32 .. | .sto .. | .st16 ..
  | .st32 .. | .cfGft .. | .cfGrp .. | .cfGpr .. | .cfGtt .. | .cfSft .. | .cfSrp .. | .cfSpr ..
  | .cfStt .. | .ecfGat .. | .ecfGhc .. | .ecfGef .. | .ecfSat .. | .ecfShc .. | .ecfSef .. | .adPki ..
  | .adPk2 .. | .adPk3 .. | .adGetIndArea .. | .adGetIndLine .. | .adGetIndDev .. | .adGetG2Main ..
  | .adGetG2Sub .. | .adGetG3Main .. | .adGetG3Mid .. | .adGetG3Sub .. | .apDlen .. | .apWr ..
  | .apRd .. | .d9Dec .. | .d9Encf .. | .d9Encc .. | .dptEnc1 .. | .dptEnc3 .. | .dptEnc5 .. | .dptEnc6 ..
  | .dptEnc7 .. | .dptEnc8 .. | .dptEnc9 .. | .dptEnc10 .. | .dptEnc11 .. | .dptEnc12 .. | .dptEnc13 ..
  | .dptEnc14 .. | .dptEnc232 .. | .dptDec1 .. | .dptDec3 .. | .dptDec5 .. | .dptDec6 .. | .dptDec7 ..
  | .dptDec8 .. | .dptDec9 .. | .dptDec10 .. | .dptDec11 .. | .dptDec12 .. | .dptDec13 ..
  | .dptDec14 .. | .dptDec232 .. => true

end Sys2Proof
end

