-- ==== Sys2Proof/Decode.lean ====
section
/-! DEFINITION. Decoding of command words, total, with named rejections (30_encoding.md R80 to R89), and the
encoder from the same tables. -/

namespace Sys2Proof

/-- `v[hi:lo] = (v >> lo) mod 2^(hi-lo+1)` (00_scope.md R8). -/
def bits (v hi lo : Nat) : Nat := (v >>> lo) % 2 ^ (hi - lo + 1)

/-- The fields of a word in format K (30_encoding.md R80). -/
structure Fields where
  op  : Nat
  rd  : Reg
  ra  : Reg
  rb  : Reg
  rc  : Reg
  imm : Byte
deriving DecidableEq, Repr

/-- The names of the operand fields of format K (30_encoding.md R80). -/
inductive FieldName where
  | rd | ra | rb | rc | imm
deriving DecidableEq, Repr

/-- Why a word is no legal encoding (30_encoding.md R87). Every one of them raises IllegalCommand. -/
inductive Reject where
  | undefinedOp   -- R87 (a)
  | unusedField   -- R86, R87 (b)
  | badBitRange   -- R87 (c)
  | badPartCode   -- R87 (d)
  | noSuchCsr     -- R87 (e)
  | readOnlyCsr   -- R87 (f)
deriving DecidableEq, Repr

/-- The fields of a command word: `op[31:24] rd[23:20] ra[19:16] rb[15:12] rc[11:8] imm[7:0]`
(30_encoding.md R80). -/
def fields (w : Word) : Fields :=
  { op  := bits w.toNat 31 24
    rd  := Fin.ofNat 16 (bits w.toNat 23 20)
    ra  := Fin.ofNat 16 (bits w.toNat 19 16)
    rb  := Fin.ofNat 16 (bits w.toNat 15 12)
    rc  := Fin.ofNat 16 (bits w.toNat 11 8)
    imm := BitVec.ofNat 8 (bits w.toNat 7 0) }

/-- Every field outside `used` is zero (30_encoding.md R86). -/
def unusedZero (f : Fields) (used : List FieldName) : Bool :=
  (used.contains .rd || f.rd == 0) && (used.contains .ra || f.ra == 0) &&
  (used.contains .rb || f.rb == 0) && (used.contains .rc || f.rc == 0) &&
  (used.contains .imm || f.imm == 0)

/-- The command `r` if every field outside `used` is zero (30_encoding.md R86, R89). -/
def onlyUses (f : Fields) (used : List FieldName) (r : Except Reject Instr) : Except Reject Instr :=
  if unusedZero f used then r else .error .unusedField

/-- CSRR by its CSR number (30_encoding.md R87 (e)). -/
def decodeCsrr (f : Fields) : Except Reject Instr :=
  match f.imm.toNat with
  | 0 => .ok (.csrrLasterr f.rd)
  | 1 => .ok (.csrrFaults f.rd)
  | 2 => .ok (.csrrErrcmd f.rd)
  | 3 => .ok (.csrrFlen f.rd)
  | 4 => .ok (.csrrRkind f.rd)
  | 5 => .ok (.csrrRlen f.rd)
  | _ => .error .noSuchCsr

/-- CSRW by its CSR number (30_encoding.md R87 (e), (f)). -/
def decodeCsrw (f : Fields) : Except Reject Instr :=
  match f.imm.toNat with
  | 0 => .error .readOnlyCsr
  | 1 => .ok (.csrwFaults f.ra)
  | 2 => .error .readOnlyCsr
  | 3 => .ok (.csrwFlen f.ra)
  | 4 => .error .readOnlyCsr
  | 5 => .error .readOnlyCsr
  | _ => .error .noSuchCsr

/-- The bit range of BF.GET and BF.SET: `imm[6:4] = hi`, `imm[2:0] = lo`, `imm[7] = imm[3] = 0`, `hi >= lo`
(30_encoding.md R82, R87 (c)). -/
def decodeRange (imm : Byte) (k : Fin 8 → Fin 8 → Instr) : Except Reject Instr :=
  let hi : Fin 8 := Fin.ofNat 8 (bits imm.toNat 6 4)
  let lo : Fin 8 := Fin.ofNat 8 (bits imm.toNat 2 0)
  if bits imm.toNat 7 7 = 0 ∧ bits imm.toNat 3 3 = 0 ∧ lo ≤ hi then .ok (k hi lo) else .error .badBitRange

/-- AD.GET by its part code (30_encoding.md R84, R87 (d)). -/
def decodeAdGet (f : Fields) : Except Reject Instr :=
  match f.imm.toNat with
  | 0x00 => .ok (.adGetIndArea f.rd f.ra)
  | 0x01 => .ok (.adGetIndLine f.rd f.ra)
  | 0x02 => .ok (.adGetIndDev f.rd f.ra)
  | 0x10 => .ok (.adGetG2Main f.rd f.ra)
  | 0x11 => .ok (.adGetG2Sub f.rd f.ra)
  | 0x20 => .ok (.adGetG3Main f.rd f.ra)
  | 0x21 => .ok (.adGetG3Mid f.rd f.ra)
  | 0x22 => .ok (.adGetG3Sub f.rd f.ra)
  | _ => .error .badPartCode

/-- DPT.ENC by its selector: every selector decodes (30_encoding.md R85). -/
def decodeDptEnc (f : Fields) : Instr :=
  match f.imm.toNat with
  | 1 => .dptEnc1 f.rd f.ra f.rb
  | 3 => .dptEnc3 f.rd f.ra f.rb
  | 5 => .dptEnc5 f.rd f.ra f.rb
  | 6 => .dptEnc6 f.rd f.ra f.rb
  | 7 => .dptEnc7 f.rd f.ra f.rb
  | 8 => .dptEnc8 f.rd f.ra f.rb
  | 9 => .dptEnc9 f.rd f.ra f.rb
  | 10 => .dptEnc10 f.rd f.ra f.rb
  | 11 => .dptEnc11 f.rd f.ra f.rb
  | 12 => .dptEnc12 f.rd f.ra f.rb
  | 13 => .dptEnc13 f.rd f.ra f.rb
  | 14 => .dptEnc14 f.rd f.ra f.rb
  | 232 => .dptEnc232 f.rd f.ra f.rb
  | _ => .dptEncOther f.rd f.ra f.rb f.imm

/-- DPT.DEC by its selector: every selector decodes (30_encoding.md R85). -/
def decodeDptDec (f : Fields) : Instr :=
  match f.imm.toNat with
  | 1 => .dptDec1 f.rd f.ra f.rb
  | 3 => .dptDec3 f.rd f.ra f.rb
  | 5 => .dptDec5 f.rd f.ra f.rb
  | 6 => .dptDec6 f.rd f.ra f.rb
  | 7 => .dptDec7 f.rd f.ra f.rb
  | 8 => .dptDec8 f.rd f.ra f.rb
  | 9 => .dptDec9 f.rd f.ra f.rb
  | 10 => .dptDec10 f.rd f.ra f.rb
  | 11 => .dptDec11 f.rd f.ra f.rb
  | 12 => .dptDec12 f.rd f.ra f.rb
  | 13 => .dptDec13 f.rd f.ra f.rb
  | 14 => .dptDec14 f.rd f.ra f.rb
  | 232 => .dptDec232 f.rd f.ra f.rb
  | _ => .dptDecOther f.rd f.ra f.rb f.imm

/-- The opcode map (30_encoding.md R83) on a word's fields. -/
def decodeFields (f : Fields) : Except Reject Instr :=
  match f.op with
  | 0x00 => onlyUses f [] (.ok .nop)
  | 0x01 => onlyUses f [.rd, .imm] (.ok (.li f.rd f.imm))
  | 0x02 => onlyUses f [.rd, .imm] (decodeCsrr f)
  | 0x03 => onlyUses f [.ra, .imm] (decodeCsrw f)
  | 0x08 => onlyUses f [.rd, .ra, .imm] (.ok (.ldo f.rd f.ra f.imm))
  | 0x09 => onlyUses f [.rd, .ra, .imm] (.ok (.ld16 f.rd f.ra f.imm))
  | 0x0A => onlyUses f [.rd, .ra, .imm] (.ok (.ld32 f.rd f.ra f.imm))
  | 0x0C => onlyUses f [.ra, .rb, .imm] (.ok (.sto f.rb f.ra f.imm))
  | 0x0D => onlyUses f [.ra, .rb, .imm] (.ok (.st16 f.rb f.ra f.imm))
  | 0x0E => onlyUses f [.ra, .rb, .imm] (.ok (.st32 f.rb f.ra f.imm))
  | 0x10 => onlyUses f [.rd, .ra, .imm] (decodeRange f.imm fun hi lo => .bfGet f.rd f.ra hi lo)
  | 0x11 => onlyUses f [.rd, .ra, .rb, .imm] (decodeRange f.imm fun hi lo => .bfSet f.rd f.ra f.rb hi lo)
  | 0x20 => onlyUses f [.rd, .ra] (.ok (.cfGft f.rd f.ra))
  | 0x21 => onlyUses f [.rd, .ra] (.ok (.cfGrp f.rd f.ra))
  | 0x22 => onlyUses f [.rd, .ra] (.ok (.cfGpr f.rd f.ra))
  | 0x23 => onlyUses f [.rd, .ra] (.ok (.cfGtt f.rd f.ra))
  | 0x24 => onlyUses f [.rd, .ra, .rb] (.ok (.cfSft f.rd f.ra f.rb))
  | 0x25 => onlyUses f [.rd, .ra, .rb] (.ok (.cfSrp f.rd f.ra f.rb))
  | 0x26 => onlyUses f [.rd, .ra, .rb] (.ok (.cfSpr f.rd f.ra f.rb))
  | 0x27 => onlyUses f [.rd, .ra, .rb] (.ok (.cfStt f.rd f.ra f.rb))
  | 0x28 => onlyUses f [.rd, .ra] (.ok (.ecfGat f.rd f.ra))
  | 0x29 => onlyUses f [.rd, .ra] (.ok (.ecfGhc f.rd f.ra))
  | 0x2A => onlyUses f [.rd, .ra] (.ok (.ecfGef f.rd f.ra))
  | 0x2C => onlyUses f [.rd, .ra, .rb] (.ok (.ecfSat f.rd f.ra f.rb))
  | 0x2D => onlyUses f [.rd, .ra, .rb] (.ok (.ecfShc f.rd f.ra f.rb))
  | 0x2E => onlyUses f [.rd, .ra, .rb] (.ok (.ecfSef f.rd f.ra f.rb))
  | 0x30 => onlyUses f [.rd, .ra, .rb, .rc] (.ok (.adPki f.rd f.ra f.rb f.rc))
  | 0x31 => onlyUses f [.rd, .ra, .rb] (.ok (.adPk2 f.rd f.ra f.rb))
  | 0x32 => onlyUses f [.rd, .ra, .rb, .rc] (.ok (.adPk3 f.rd f.ra f.rb f.rc))
  | 0x34 => onlyUses f [.rd, .ra, .imm] (decodeAdGet f)
  | 0x40 => onlyUses f [.rd, .ra, .rb] (.ok (.apDlen f.rd f.ra f.rb))
  | 0x41 => onlyUses f [.ra, .rb, .rc] (.ok (.apWr f.ra f.rb f.rc))
  | 0x42 => onlyUses f [.rd, .ra, .rb, .rc] (.ok (.apRd f.rd f.ra f.rb f.rc))
  | 0x50 => onlyUses f [.rd, .ra] (.ok (.d9Dec f.rd f.ra))
  | 0x51 => onlyUses f [.rd, .ra] (.ok (.d9Encf f.rd f.ra))
  | 0x52 => onlyUses f [.rd, .ra] (.ok (.d9Encc f.rd f.ra))
  | 0x60 => onlyUses f [.rd, .ra, .rb, .imm] (.ok (decodeDptEnc f))
  | 0x61 => onlyUses f [.rd, .ra, .rb, .imm] (.ok (decodeDptDec f))
  | _ => .error .undefinedOp

/-- The decoder (30_encoding.md R89): total, and a function of the word alone. -/
def decode (w : Word) : Except Reject Instr := decodeFields (fields w)

/-- A word of format K from its fields (30_encoding.md R80). -/
def pack (f : Fields) : Word :=
  BitVec.ofNat 32 (f.op * 2 ^ 24 + f.rd.val * 2 ^ 20 + f.ra.val * 2 ^ 16 + f.rb.val * 2 ^ 12
    + f.rc.val * 2 ^ 8 + f.imm.toNat)

/-- `imm` of a bit range (30_encoding.md R82). -/
def rangeImm (hi lo : Fin 8) : Byte := BitVec.ofNat 8 (hi.val * 16 + lo.val)

/-- The fields of a command's word (30_encoding.md R83, R84, R85); a field it does not use is zero (R86). -/
def Instr.fields : Instr → Fields
  | .nop => ⟨0x00, 0, 0, 0, 0, 0⟩
  | .li rd imm => ⟨0x01, rd, 0, 0, 0, imm⟩
  | .csrrLasterr rd => ⟨0x02, rd, 0, 0, 0, 0⟩
  | .csrrFaults rd => ⟨0x02, rd, 0, 0, 0, 1⟩
  | .csrrErrcmd rd => ⟨0x02, rd, 0, 0, 0, 2⟩
  | .csrrFlen rd => ⟨0x02, rd, 0, 0, 0, 3⟩
  | .csrrRkind rd => ⟨0x02, rd, 0, 0, 0, 4⟩
  | .csrrRlen rd => ⟨0x02, rd, 0, 0, 0, 5⟩
  | .csrwFaults ra => ⟨0x03, 0, ra, 0, 0, 1⟩
  | .csrwFlen ra => ⟨0x03, 0, ra, 0, 0, 3⟩
  | .ldo rd ra imm => ⟨0x08, rd, ra, 0, 0, imm⟩
  | .ld16 rd ra imm => ⟨0x09, rd, ra, 0, 0, imm⟩
  | .ld32 rd ra imm => ⟨0x0A, rd, ra, 0, 0, imm⟩
  | .sto rb ra imm => ⟨0x0C, 0, ra, rb, 0, imm⟩
  | .st16 rb ra imm => ⟨0x0D, 0, ra, rb, 0, imm⟩
  | .st32 rb ra imm => ⟨0x0E, 0, ra, rb, 0, imm⟩
  | .bfGet rd ra hi lo => ⟨0x10, rd, ra, 0, 0, rangeImm hi lo⟩
  | .bfSet rd ra rb hi lo => ⟨0x11, rd, ra, rb, 0, rangeImm hi lo⟩
  | .cfGft rd ra => ⟨0x20, rd, ra, 0, 0, 0⟩
  | .cfGrp rd ra => ⟨0x21, rd, ra, 0, 0, 0⟩
  | .cfGpr rd ra => ⟨0x22, rd, ra, 0, 0, 0⟩
  | .cfGtt rd ra => ⟨0x23, rd, ra, 0, 0, 0⟩
  | .cfSft rd ra rb => ⟨0x24, rd, ra, rb, 0, 0⟩
  | .cfSrp rd ra rb => ⟨0x25, rd, ra, rb, 0, 0⟩
  | .cfSpr rd ra rb => ⟨0x26, rd, ra, rb, 0, 0⟩
  | .cfStt rd ra rb => ⟨0x27, rd, ra, rb, 0, 0⟩
  | .ecfGat rd ra => ⟨0x28, rd, ra, 0, 0, 0⟩
  | .ecfGhc rd ra => ⟨0x29, rd, ra, 0, 0, 0⟩
  | .ecfGef rd ra => ⟨0x2A, rd, ra, 0, 0, 0⟩
  | .ecfSat rd ra rb => ⟨0x2C, rd, ra, rb, 0, 0⟩
  | .ecfShc rd ra rb => ⟨0x2D, rd, ra, rb, 0, 0⟩
  | .ecfSef rd ra rb => ⟨0x2E, rd, ra, rb, 0, 0⟩
  | .adPki rd ra rb rc => ⟨0x30, rd, ra, rb, rc, 0⟩
  | .adPk2 rd ra rb => ⟨0x31, rd, ra, rb, 0, 0⟩
  | .adPk3 rd ra rb rc => ⟨0x32, rd, ra, rb, rc, 0⟩
  | .adGetIndArea rd ra => ⟨0x34, rd, ra, 0, 0, 0x00⟩
  | .adGetIndLine rd ra => ⟨0x34, rd, ra, 0, 0, 0x01⟩
  | .adGetIndDev rd ra => ⟨0x34, rd, ra, 0, 0, 0x02⟩
  | .adGetG2Main rd ra => ⟨0x34, rd, ra, 0, 0, 0x10⟩
  | .adGetG2Sub rd ra => ⟨0x34, rd, ra, 0, 0, 0x11⟩
  | .adGetG3Main rd ra => ⟨0x34, rd, ra, 0, 0, 0x20⟩
  | .adGetG3Mid rd ra => ⟨0x34, rd, ra, 0, 0, 0x21⟩
  | .adGetG3Sub rd ra => ⟨0x34, rd, ra, 0, 0, 0x22⟩
  | .apDlen rd ra rb => ⟨0x40, rd, ra, rb, 0, 0⟩
  | .apWr ra rb rc => ⟨0x41, 0, ra, rb, rc, 0⟩
  | .apRd rd ra rb rc => ⟨0x42, rd, ra, rb, rc, 0⟩
  | .d9Dec rd ra => ⟨0x50, rd, ra, 0, 0, 0⟩
  | .d9Encf rd ra => ⟨0x51, rd, ra, 0, 0, 0⟩
  | .d9Encc rd ra => ⟨0x52, rd, ra, 0, 0, 0⟩
  | .dptEnc1 rd ra rb => ⟨0x60, rd, ra, rb, 0, 1⟩
  | .dptEnc3 rd ra rb => ⟨0x60, rd, ra, rb, 0, 3⟩
  | .dptEnc5 rd ra rb => ⟨0x60, rd, ra, rb, 0, 5⟩
  | .dptEnc6 rd ra rb => ⟨0x60, rd, ra, rb, 0, 6⟩
  | .dptEnc7 rd ra rb => ⟨0x60, rd, ra, rb, 0, 7⟩
  | .dptEnc8 rd ra rb => ⟨0x60, rd, ra, rb, 0, 8⟩
  | .dptEnc9 rd ra rb => ⟨0x60, rd, ra, rb, 0, 9⟩
  | .dptEnc10 rd ra rb => ⟨0x60, rd, ra, rb, 0, 10⟩
  | .dptEnc11 rd ra rb => ⟨0x60, rd, ra, rb, 0, 11⟩
  | .dptEnc12 rd ra rb => ⟨0x60, rd, ra, rb, 0, 12⟩
  | .dptEnc13 rd ra rb => ⟨0x60, rd, ra, rb, 0, 13⟩
  | .dptEnc14 rd ra rb => ⟨0x60, rd, ra, rb, 0, 14⟩
  | .dptEnc232 rd ra rb => ⟨0x60, rd, ra, rb, 0, 232⟩
  | .dptEncOther rd ra rb sel => ⟨0x60, rd, ra, rb, 0, sel⟩
  | .dptDec1 rd ra rb => ⟨0x61, rd, ra, rb, 0, 1⟩
  | .dptDec3 rd ra rb => ⟨0x61, rd, ra, rb, 0, 3⟩
  | .dptDec5 rd ra rb => ⟨0x61, rd, ra, rb, 0, 5⟩
  | .dptDec6 rd ra rb => ⟨0x61, rd, ra, rb, 0, 6⟩
  | .dptDec7 rd ra rb => ⟨0x61, rd, ra, rb, 0, 7⟩
  | .dptDec8 rd ra rb => ⟨0x61, rd, ra, rb, 0, 8⟩
  | .dptDec9 rd ra rb => ⟨0x61, rd, ra, rb, 0, 9⟩
  | .dptDec10 rd ra rb => ⟨0x61, rd, ra, rb, 0, 10⟩
  | .dptDec11 rd ra rb => ⟨0x61, rd, ra, rb, 0, 11⟩
  | .dptDec12 rd ra rb => ⟨0x61, rd, ra, rb, 0, 12⟩
  | .dptDec13 rd ra rb => ⟨0x61, rd, ra, rb, 0, 13⟩
  | .dptDec14 rd ra rb => ⟨0x61, rd, ra, rb, 0, 14⟩
  | .dptDec232 rd ra rb => ⟨0x61, rd, ra, rb, 0, 232⟩
  | .dptDecOther rd ra rb sel => ⟨0x61, rd, ra, rb, 0, sel⟩

/-- The encoder: the word of a well-formed command (30_encoding.md R80, R83). -/
def encode (i : Instr) : Word := pack i.fields

/-- What `decode` reads from the word `w` of the opcode table's numbering; the bits from `nbits` up are zero.
Every row is one 32-bit word and a command word is handed over whole, so no byte order applies
(30_encoding.md R80; log entry 15). -/
def decodeTableWord (nbits w : Nat) : Option Instr := (decode (BitVec.ofNat 32 (w % 2 ^ nbits))).toOption

end Sys2Proof
end

