-- ==== Sys2Proof/Machine/State.lean ====
section
/-! DEFINITION. The state of the unit (10_state.md), the errors it records, the host's actions, and reset. -/

namespace Sys2Proof.Machine

/-- The error kinds a command can raise (60_exceptions.md R320). -/
inductive ErrorKind where
  | invalidAddress
  | rangeError
  | unsupportedType
  | encodingError
  | frameTooShort
  | illegalCommand
deriving DecidableEq, Repr

/-- The six CSRs (10_state.md R36). -/
inductive Csr where
  | lasterr
  | faults
  | errcmd
  | flen
  | rkind
  | rlen
deriving DecidableEq, Repr

/-- What the host can do between commands (10_state.md R46). -/
inductive HostAction where
  | writeReg (i : Reg) (v : Word)
  | readReg (i : Reg)
  | writeFB (a : Nat) (o : Byte)
  | readFB (a : Nat)
  | readCsr (n : Csr)
  | writeCsr (n : Csr) (v : Word)
  | issue (w : Word)
  | reset
deriving DecidableEq, Repr

/-- The octets of the frame buffer that have been written since reset, each with its value, at strictly
rising addresses. An address not listed has no value (20_memory.md R66; log entry 3). -/
abbrev Memory := List Host.Cell

/-- The state. The spec's: `x`, the six CSRs, `fb`. Its parameters: `config`. The model's own: `xWritten`,
`host`, `hostData`, `freeCount`. -/
structure State where
  /-- The parameters of 00_scope.md R7; no step changes them. -/
  config    : Config
  /-- The general registers x0 to x15 (10_state.md R31). -/
  x         : Vector Word 16
  /-- Which general registers have been written since reset (the notion of 10_state.md R33; log entry 2). -/
  xWritten  : Vector Bool 16
  /-- LASTERR (10_state.md R37). -/
  lasterr   : Word
  /-- FAULTS (10_state.md R38). -/
  faults    : Word
  /-- ERRCMD (10_state.md R39). -/
  errcmd    : Word
  /-- FLEN (10_state.md R40). -/
  flen      : Word
  /-- RKIND (10_state.md R41). -/
  rkind     : Word
  /-- RLEN (10_state.md R42). -/
  rlen      : Word
  /-- The frame buffer (10_state.md R44). -/
  fb        : Memory
  /-- The host's coming actions, next first (10_state.md R34, R46; log entry 6). -/
  host      : List HostAction
  /-- The value the host port returned last (10_state.md R46; log entry 9). -/
  hostData  : Word
  /-- How many free values have been drawn (93_implementation_defined.md U3; log entry 10). -/
  freeCount : Nat
deriving DecidableEq, Repr

/-- Why a step stops with a fault: never. "`stuck` (no step exists; used for nothing here, the unit cannot
hang)", and a raised error is a next state (93_implementation_defined.md part 1; 60_exceptions.md R326). -/
inductive Fault where
deriving DecidableEq, Repr

/-- Why the model declines to compute a step (93_implementation_defined.md part 1, treatment `refuse`). -/
inductive Refusal where
  /-- Raised by `exec` for an instruction without a meaning in this model. Safe: nothing is claimed. -/
  | notModelled (mnemonic : String)
  /-- Raised by the command `i` when it reads the frame-buffer octet at `addr`, inside the window, which
  nothing has written since reset (U2; 20_memory.md R66). Safe: the unit would read some octet. -/
  | unspecifiedOctet (i : Instr) (addr : Nat)
  /-- Raised by HostReadFB of an octet nothing has written since reset (U2). Safe. -/
  | unspecifiedHostRead (addr : Nat)
  /-- Raised by HostWriteFB and HostReadFB at an address that is not in 0 .. FB_BYTES-1: "the port does not
  have such an action" (U12; 10_state.md R46). Safe. -/
  | noSuchHostAction (addr : Nat)
deriving DecidableEq, Repr

/-- The state right after reset (10_state.md R47; 70_reset_and_hazards.md R350, R351): the six CSRs are 0 and
no frame-buffer octet has a value. The general registers are unspecified by the spec; they hold 0 here and
none counts as written (DESIGN CHOICE, unsafe, log entries 1 and 2). The configuration is the suggested one
(log entries 4, 5); the model's own fields are empty (log entries 6, 9, 10). -/
def State.reset : State :=
  { config := Config.suggested
    x := Vector.replicate 16 0
    xWritten := Vector.replicate 16 false
    lasterr := 0
    faults := 0
    errcmd := 0
    flen := 0
    rkind := 0
    rlen := 0
    fb := []
    host := []
    hostData := 0
    freeCount := 0 }

end Sys2Proof.Machine
end

