-- ==== Sys2Proof/Machine/Flags.lean ====
section
/-! DEFINITION. The unit has no condition flags (10_state.md R35). What stands in their place is the error
record: the codes of LASTERR and the sticky bits of FAULTS. -/

namespace Sys2Proof.Machine

/-- The code of an error kind (60_exceptions.md R320). -/
def ErrorKind.code : ErrorKind → Nat
  | .invalidAddress => 1
  | .rangeError => 2
  | .unsupportedType => 3
  | .encodingError => 4
  | .frameTooShort => 5
  | .illegalCommand => 6

/-- The CSR number (10_state.md R36). -/
def Csr.number : Csr → Nat
  | .lasterr => 0
  | .faults => 1
  | .errcmd => 2
  | .flen => 3
  | .rkind => 4
  | .rlen => 5

/-- `csr[FAULTS] | (1 << k)` (60_exceptions.md R326). -/
def setFault (faults : Word) (e : ErrorKind) : Word := faults ||| (1#32 <<< e.code)

/-- The write-one-to-clear of FAULTS: `csr[FAULTS] & ~(v & 0x7E)` (40_system_and_buffer.md R103;
10_state.md R38). -/
def clearFaults (faults v : Word) : Word := faults &&& ~~~(v &&& 0x7E#32)

end Sys2Proof.Machine
end

