-- ==== Sys2Proof/Machine/Ops.lean ====
section
/-! DEFINITION. The named operations over registers, CSRs and the frame buffer; how a command ends. -/

namespace Sys2Proof.Machine

/-- How a command's pseudocode can end early: it raises an error (00_scope.md R11), or it reads an octet that
has no value (93_implementation_defined.md U2). -/
inductive Stop where
  | raise (e : ErrorKind)
  | unspecified (addr : Nat)
deriving DecidableEq, Repr

/-- `raise <Error>` (00_scope.md R11). -/
def raise {α : Type} (e : ErrorKind) : Except Stop α := .error (.raise e)

/-! ### The frame buffer -/

/-- The canonical form: strictly rising addresses. No entry can equal what an unlisted address reads as,
since an unlisted address has no value. -/
abbrev Memory.wf (m : Memory) : Prop := m.Pairwise fun p q => p.1 < q.1

/-- The octet at `a`; none if nothing has written it since reset (20_memory.md R66). -/
def Memory.readByte : Memory → Nat → Option Byte
  | [], _ => none
  | (k, b) :: m, a => if k = a then some b else Memory.readByte m a

/-- `FB[a] <- b`, in canonical form. -/
def Memory.writeByte : Memory → Nat → Byte → Memory
  | [], a, b => [(a, b)]
  | (k, c) :: m, a, b =>
    if a < k then (a, b) :: (k, c) :: m
    else if a = k then (a, b) :: m
    else (k, c) :: Memory.writeByte m a b

/-- `FB[a], FB[a+1], …, FB[a+n-1]`, or the first of these addresses that has no value. -/
def Memory.readOctets (m : Memory) (a : Nat) : Nat → Except Nat (List Byte)
  | 0 => .ok []
  | n + 1 =>
    match m.readByte a with
    | none => .error a
    | some b => (Memory.readOctets m (a + 1) n).map fun bs => b :: bs

/-- The octets `bs` stored from `a` upwards. -/
def Memory.writeOctets (m : Memory) (a : Nat) : List Byte → Memory
  | [] => m
  | b :: bs => Memory.writeOctets (m.writeByte a b) (a + 1) bs

/-- The big-endian value of a sequence of octets, first octet most significant (20_memory.md R60). -/
def beNat (bs : List Byte) : Nat := bs.foldl (fun v b => v * 256 + b.toNat) 0

/-- The `n` octets of `v`, most significant first: octet i is `(v >> (8*(n-1-i))) & 0xFF` (20_memory.md R60). -/
def beOctets : Nat → Nat → List Byte
  | 0, _ => []
  | n + 1, v => BitVec.ofNat 8 (v >>> (8 * n)) :: beOctets n v

/-! ### Access through the window -/

/-- The window check of `n` octets at `a`: `a + n <= csr[FLEN]`, in unbounded integers (20_memory.md R64). -/
def checkWindow (s : State) (a n : Nat) : Except Stop Unit :=
  if a + n ≤ s.flen.toNat then .ok () else raise .frameTooShort

/-- The octets of a range, after the window check, which is made for an empty range too (20_memory.md R64);
an octet without a value stops the command (20_memory.md R66). -/
def memReadOctets (s : State) (a n : Nat) : Except Stop (List Byte) := do
  checkWindow s a n
  (s.fb.readOctets a n).mapError .unspecified

/-- `MemRead(a, n)` (00_scope.md R10). -/
def memRead (s : State) (a n : Nat) : Except Stop Nat := (memReadOctets s a n).map beNat

/-- The octets `bs` stored at `a`, after the window check. -/
def memWriteOctets (s : State) (a : Nat) (bs : List Byte) : Except Stop State := do
  checkWindow s a bs.length
  return { s with fb := s.fb.writeOctets a bs }

/-- `MemWrite(a, n, v)` (00_scope.md R10). -/
def memWrite (s : State) (a n v : Nat) : Except Stop State := memWriteOctets s a (beOctets n v)

/-! ### Registers -/

/-- `x[r]` as an unsigned integer (00_scope.md R10). -/
def State.reg (s : State) (r : Reg) : Nat := (s.x.get r).toNat

/-- `x[r] <- v`; the register then counts as written (10_state.md R33). -/
def State.setReg (s : State) (r : Reg) (v : Word) : State :=
  { s with x := s.x.set r v, xWritten := s.xWritten.set r true }

/-- `x[r] <- zext_32(v)` for a non-negative integer `v` (00_scope.md R9). -/
def State.setNat (s : State) (r : Reg) (v : Nat) : State := s.setReg r (BitVec.ofNat 32 v)

/-- `x[r] <- to_u32(v)` for a signed integer `v` (00_scope.md R9). -/
def State.setInt (s : State) (r : Reg) (v : Int) : State := s.setReg r (BitVec.ofInt 32 v)

/-- `csr[NAME]` (10_state.md R36). -/
def State.csr (s : State) : Csr → Word
  | .lasterr => s.lasterr
  | .faults => s.faults
  | .errcmd => s.errcmd
  | .flen => s.flen
  | .rkind => s.rkind
  | .rlen => s.rlen

/-! ### How a command ends -/

/-- RAISING AN ERROR, the unit's only exception: LASTERR gets the code, FAULTS its sticky bit, ERRCMD the
command word `w`; nothing else changes (60_exceptions.md R326). There is no handler and no return (R328). -/
def State.raiseError (s : State) (e : ErrorKind) (w : Word) : State :=
  { s with lasterr := BitVec.ofNat 32 e.code, faults := setFault s.faults e, errcmd := w }

/-- The common completion: after the command's own writes LASTERR becomes 0 (60_exceptions.md R327). -/
def State.complete (s : State) : State := { s with lasterr := 0 }

/-- The end of the command `i` issued in state `s`, from what its pseudocode did: its writes and the common
completion (R327), or the raised error with nothing else written (R326), or a refusal that names the
command (93_implementation_defined.md U2). The word recorded in ERRCMD is the command's encoding: a legal
word is the encoding of the command it decodes to (log entry 8). -/
def finish (i : Instr) (s : State) : Except Stop State → Host.Outcome State Fault Refusal
  | .ok t => .next t.complete
  | .error (.raise e) => .next (s.raiseError e (encode i))
  | .error (.unspecified a) => .refused (.unspecifiedOctet i a)

end Sys2Proof.Machine
end

