-- ==== Sys2Proof/Machine/Operands.lean ====
section
/-! DEFINITION. Operand checks and forms: carriers, bounds, signed readings, the effective address; which
registers a command reads and writes. -/

namespace Sys2Proof.Machine

/-- `v`, unless it is above `bound`: then the error `e`. -/
def atMost (bound : Nat) (e : ErrorKind) (v : Nat) : Except Stop Nat :=
  if v > bound then raise e else .ok v

/-- `oct(v)`: an octet carrier (00_scope.md R12). -/
def oct (v : Nat) : Except Stop Nat := if v < 256 then .ok v else raise .rangeError

/-- `u16(v)`: a 16-bit carrier (00_scope.md R12). -/
def u16 (v : Nat) : Except Stop Nat := if v < 65536 then .ok v else raise .rangeError

/-- `u24(v)`: a 24-bit carrier (00_scope.md R12). -/
def u24 (v : Nat) : Except Stop Nat := if v < 2 ^ 24 then .ok v else raise .rangeError

/-- `sext_N(v)` for an N-bit pattern `v` (00_scope.md R9). -/
def sext (n v : Nat) : Int := if bits v (n - 1) (n - 1) = 1 then (v : Int) - 2 ^ n else v

/-- `to_s32(u)` (00_scope.md R9). -/
def toS32 (u : Nat) : Int := sext 32 u

/-- `ea = x[ra] + imm`, an unbounded sum (40_system_and_buffer.md R104). -/
def effAddr (s : State) (ra : Reg) (imm : Byte) : Nat := s.reg ra + imm.toNat

/-- The general register a command writes when it does not raise (10_state.md R32; 30_encoding.md R81). DPT.ENC
and DPT.DEC with an unknown selector always raise (47_dpt_general.md R280) and write none. -/
def dest : Instr → Option Reg
  | .nop | .csrwFaults _ | .csrwFlen _ | .sto _ _ _ | .st16 _ _ _ | .st32 _ _ _ | .apWr _ _ _
  | .dptEncOther _ _ _ _ | .dptDecOther _ _ _ _ => none
  | .li rd _ | .csrrLasterr rd | .csrrFaults rd | .csrrErrcmd rd | .csrrFlen rd | .csrrRkind rd
  | .csrrRlen rd | .ldo rd _ _ | .ld16 rd _ _ | .ld32 rd _ _ | .bfGet rd _ _ _ | .bfSet rd _ _ _ _
  | .cfGft rd _ | .cfGrp rd _ | .cfGpr rd _ | .cfGtt rd _ | .cfSft rd _ _ | .cfSrp rd _ _ | .cfSpr rd _ _
  | .cfStt rd _ _ | .ecfGat rd _ | .ecfGhc rd _ | .ecfGef rd _ | .ecfSat rd _ _ | .ecfShc rd _ _
  | .ecfSef rd _ _ | .adPki rd _ _ _ | .adPk2 rd _ _ | .adPk3 rd _ _ _ | .adGetIndArea rd _
  | .adGetIndLine rd _ | .adGetIndDev rd _ | .adGetG2Main rd _ | .adGetG2Sub rd _ | .adGetG3Main rd _
  | .adGetG3Mid rd _ | .adGetG3Sub rd _ | .apDlen rd _ _ | .apRd rd _ _ _ | .d9Dec rd _ | .d9Encf rd _
  | .d9Encc rd _ | .dptEnc1 rd _ _ | .dptEnc3 rd _ _ | .dptEnc5 rd _ _ | .dptEnc6 rd _ _ | .dptEnc7 rd _ _
  | .dptEnc8 rd _ _ | .dptEnc9 rd _ _ | .dptEnc10 rd _ _ | .dptEnc11 rd _ _ | .dptEnc12 rd _ _
  | .dptEnc13 rd _ _ | .dptEnc14 rd _ _ | .dptEnc232 rd _ _ | .dptDec1 rd _ _
  | .dptDec3 rd _ _ | .dptDec5 rd _ _ | .dptDec6 rd _ _ | .dptDec7 rd _ _ | .dptDec8 rd _ _
  | .dptDec9 rd _ _ | .dptDec10 rd _ _ | .dptDec11 rd _ _ | .dptDec12 rd _ _ | .dptDec13 rd _ _
  | .dptDec14 rd _ _ | .dptDec232 rd _ _ => some rd

/-- The general registers a command reads (30_encoding.md R81, R83). An unknown selector raises before any
register is read (47_dpt_general.md R280). -/
def sources : Instr → List Reg
  | .nop | .li _ _ | .csrrLasterr _ | .csrrFaults _ | .csrrErrcmd _ | .csrrFlen _ | .csrrRkind _
  | .csrrRlen _ | .dptEncOther _ _ _ _ | .dptDecOther _ _ _ _ => []
  | .csrwFaults ra | .csrwFlen ra | .ldo _ ra _ | .ld16 _ ra _ | .ld32 _ ra _ | .bfGet _ ra _ _
  | .cfGft _ ra | .cfGrp _ ra | .cfGpr _ ra | .cfGtt _ ra | .ecfGat _ ra | .ecfGhc _ ra | .ecfGef _ ra
  | .adGetIndArea _ ra | .adGetIndLine _ ra | .adGetIndDev _ ra | .adGetG2Main _ ra | .adGetG2Sub _ ra
  | .adGetG3Main _ ra | .adGetG3Mid _ ra | .adGetG3Sub _ ra | .d9Dec _ ra | .d9Encf _ ra | .d9Encc _ ra
   => [ra]
  | .sto rb ra _ | .st16 rb ra _ | .st32 rb ra _ => [rb, ra]
  | .bfSet _ ra rb _ _ | .cfSft _ ra rb | .cfSrp _ ra rb | .cfSpr _ ra rb | .cfStt _ ra rb
  | .ecfSat _ ra rb | .ecfShc _ ra rb | .ecfSef _ ra rb | .adPk2 _ ra rb | .apDlen _ ra rb
  | .dptEnc1 _ ra rb | .dptEnc3 _ ra rb | .dptEnc5 _ ra rb | .dptEnc6 _ ra rb | .dptEnc7 _ ra rb
  | .dptEnc8 _ ra rb | .dptEnc9 _ ra rb | .dptEnc10 _ ra rb | .dptEnc11 _ ra rb | .dptEnc12 _ ra rb
  | .dptEnc13 _ ra rb | .dptEnc14 _ ra rb | .dptEnc232 _ ra rb | .dptDec1 _ ra rb | .dptDec3 _ ra rb
  | .dptDec5 _ ra rb | .dptDec6 _ ra rb | .dptDec7 _ ra rb | .dptDec8 _ ra rb | .dptDec9 _ ra rb
  | .dptDec10 _ ra rb | .dptDec11 _ ra rb | .dptDec12 _ ra rb | .dptDec13 _ ra rb | .dptDec14 _ ra rb
  | .dptDec232 _ ra rb => [ra, rb]
  | .adPki _ ra rb rc | .adPk3 _ ra rb rc | .apWr ra rb rc | .apRd _ ra rb rc => [ra, rb, rc]

end Sys2Proof.Machine
end

