-- ==== Sys2Proof/Machine/Address.lean ====
section
/-! DEFINITION. The address commands (44_address.md R170 to R175). -/

namespace Sys2Proof.Machine

/-- The individual address of its parts (R171, R172). -/
def packIndividual (a l d : Nat) : Except Stop Nat :=
  if a > 15 ∨ l > 15 ∨ d > 255 then raise .invalidAddress else .ok (a <<< 12 ||| l <<< 8 ||| d)

/-- The 2-level group address of its parts (R171, R173). -/
def packGroup2 (m u : Nat) : Except Stop Nat :=
  if m > 31 ∨ u > 2047 then raise .invalidAddress else .ok (m <<< 11 ||| u)

/-- The 3-level group address of its parts (R171, R174). -/
def packGroup3 (m i u : Nat) : Except Stop Nat :=
  if m > 31 ∨ i > 7 ∨ u > 255 then raise .invalidAddress else .ok (m <<< 11 ||| i <<< 8 ||| u)

/-- One part of the 16-bit address in `x[ra]`: `v[hi:lo]` (R175). -/
def addressPartBody (hi lo : Nat) (rd ra : Reg) (s : State) : Except Stop State := do
  let v ← u16 (s.reg ra)
  return s.setNat rd (bits v hi lo)

/-- AD.PKI (R172). -/
def execAdPki (rd ra rb rc : Reg) (s : State) : Host.Outcome State Fault Refusal :=
  finish (.adPki rd ra rb rc) s do
    let v ← packIndividual (s.reg ra) (s.reg rb) (s.reg rc)
    return s.setNat rd v

/-- AD.PK2 (R173). -/
def execAdPk2 (rd ra rb : Reg) (s : State) : Host.Outcome State Fault Refusal :=
  finish (.adPk2 rd ra rb) s do
    let v ← packGroup2 (s.reg ra) (s.reg rb)
    return s.setNat rd v

/-- AD.PK3 (R174). -/
def execAdPk3 (rd ra rb rc : Reg) (s : State) : Host.Outcome State Fault Refusal :=
  finish (.adPk3 rd ra rb rc) s do
    let v ← packGroup3 (s.reg ra) (s.reg rb) (s.reg rc)
    return s.setNat rd v

/-- AD.GET IND.AREA: `v[15:12]` (R175). -/
def execAdGetIndArea (rd ra : Reg) (s : State) : Host.Outcome State Fault Refusal :=
  finish (.adGetIndArea rd ra) s (addressPartBody 15 12 rd ra s)

/-- AD.GET IND.LINE: `v[11:8]` (R175). -/
def execAdGetIndLine (rd ra : Reg) (s : State) : Host.Outcome State Fault Refusal :=
  finish (.adGetIndLine rd ra) s (addressPartBody 11 8 rd ra s)

/-- AD.GET IND.DEV: `v[7:0]` (R175). -/
def execAdGetIndDev (rd ra : Reg) (s : State) : Host.Outcome State Fault Refusal :=
  finish (.adGetIndDev rd ra) s (addressPartBody 7 0 rd ra s)

/-- AD.GET G2.MAIN: `v[15:11]` (R175). -/
def execAdGetG2Main (rd ra : Reg) (s : State) : Host.Outcome State Fault Refusal :=
  finish (.adGetG2Main rd ra) s (addressPartBody 15 11 rd ra s)

/-- AD.GET G2.SUB: `v[10:0]` (R175). -/
def execAdGetG2Sub (rd ra : Reg) (s : State) : Host.Outcome State Fault Refusal :=
  finish (.adGetG2Sub rd ra) s (addressPartBody 10 0 rd ra s)

/-- AD.GET G3.MAIN: `v[15:11]` (R175). -/
def execAdGetG3Main (rd ra : Reg) (s : State) : Host.Outcome State Fault Refusal :=
  finish (.adGetG3Main rd ra) s (addressPartBody 15 11 rd ra s)

/-- AD.GET G3.MID: `v[10:8]` (R175). -/
def execAdGetG3Mid (rd ra : Reg) (s : State) : Host.Outcome State Fault Refusal :=
  finish (.adGetG3Mid rd ra) s (addressPartBody 10 8 rd ra s)

/-- AD.GET G3.SUB: `v[7:0]` (R175). -/
def execAdGetG3Sub (rd ra : Reg) (s : State) : Host.Outcome State Fault Refusal :=
  finish (.adGetG3Sub rd ra) s (addressPartBody 7 0 rd ra s)

end Sys2Proof.Machine
end

