-- ==== Sys2Proof/Machine/Dpt9.lean ====
section
/-! DEFINITION. The DPT9 two-octet float (46_dpt9.md): a rational is a numerator (Int) over a positive
denominator (Nat); all arithmetic is exact. -/

namespace Sys2Proof.Machine

/-- The signed mantissa `M` of a word: `m - 2048` if the sign bit is set (R220). -/
def d9Mantissa (w : Nat) : Int := if bits w 15 15 = 1 then (bits w 10 0 : Int) - 2048 else bits w 10 0

/-- The exponent `E` of a word (R220). -/
def d9Exponent (w : Nat) : Nat := bits w 14 11

/-- `d9_decode(w)`: the centi value `M * 2^E` (R221, R222). -/
def d9Decode (w : Nat) : Int := d9Mantissa w * 2 ^ d9Exponent w

/-- `-2048 <= q / 2^E <= 2047` for `q = num / den`, tested on the exact quotient (R225). -/
def d9Fits (num : Int) (den E : Nat) : Bool :=
  decide (-2048 * (den * 2 ^ E : Nat) ≤ num ∧ num ≤ 2047 * (den * 2 ^ E : Nat))

/-- The exponent search: the smallest `E` in 0..15 that fits (R225). -/
def d9Search (num : Int) (den : Nat) : Option Nat := (List.range 16).find? (d9Fits num den)

/-- `round(num / d)` in the mode of `D9_ROUND`: nearest with ties away from zero, nearest with ties to even, or
toward zero (R226; 00_scope.md R7). -/
def d9Round (mode : Rounding) (num : Int) (d : Nat) : Int :=
  let q := num.natAbs / d
  let r := num.natAbs % d
  let m :=
    match mode with
    | .nearestAway => if d ≤ 2 * r then q + 1 else q
    | .nearestEven => if 2 * r < d then q else if d < 2 * r then q + 1 else q + q % 2
    | .towardZero => q
  if num < 0 then -(m : Int) else m

/-- `(S << 15) | (E << 11) | m` with `S = 1` exactly if `M < 0` and `m = M mod 2048` (R227). -/
def d9Word (M : Int) (E : Nat) : Nat :=
  ((if M < 0 then 1 else 0) <<< 15) ||| (E <<< 11) ||| (M % 2048).toNat

/-- `d9_encode(num / den)`: RangeError if no exponent fits (R227). -/
def d9Encode (mode : Rounding) (num : Int) (den : Nat) : Except Stop Nat :=
  match d9Search num den with
  | none => raise .rangeError
  | some E => .ok (d9Word (d9Round mode num (den * 2 ^ E)) E)

/-- The binary32 pattern `b` is an infinity or a NaN: biased exponent 255 (R224). -/
def f32NonFinite (b : Nat) : Bool := bits b 30 23 == 255

/-- `f32_value(b) * 2^149`, an integer: the magnitude is `f * 2^-149` if `e = 0`, else
`(2^23 + f) * 2^(e - 150)`; negated if the sign bit is set (R224; log entry 16). -/
def f32Scaled (b : Nat) : Int :=
  let e := bits b 30 23
  let f := bits b 22 0
  let mag := if e = 0 then f else (2 ^ 23 + f) * 2 ^ (e - 1)
  if bits b 31 31 = 1 then -(mag : Int) else mag

/-- `d9_encode(100 * f32_value(b))`, EncodingError for a non-finite pattern (R228; 45_apdu.md R204). -/
def d9EncodeF32 (mode : Rounding) (b : Nat) : Except Stop Nat :=
  if f32NonFinite b then raise .encodingError else d9Encode mode (100 * f32Scaled b) (2 ^ 149)

/-- D9.DEC (R223). -/
def execD9Dec (rd ra : Reg) (s : State) : Host.Outcome State Fault Refusal :=
  finish (.d9Dec rd ra) s do
    let w ← u16 (s.reg ra)
    return s.setInt rd (d9Decode w)

/-- D9.ENCF (R228). -/
def execD9Encf (rd ra : Reg) (s : State) : Host.Outcome State Fault Refusal :=
  finish (.d9Encf rd ra) s do
    let w ← d9EncodeF32 s.config.d9Round (s.reg ra)
    return s.setNat rd w

/-- D9.ENCC (R229). -/
def execD9Encc (rd ra : Reg) (s : State) : Host.Outcome State Fault Refusal :=
  finish (.d9Encc rd ra) s do
    let w ← d9Encode s.config.d9Round (toS32 (s.reg ra)) 1
    return s.setNat rd w

end Sys2Proof.Machine
end

