-- ==== Sys2Proof/Machine/Apdu.lean ====
section
/-! DEFINITION. APDU framing (45_apdu.md R200 to R206). -/

namespace Sys2Proof.Machine

/-- `data_length(p)` of a payload of `n` octets whose first octet is `p0`, cases in order (R201). -/
def dataLength (n p0 : Nat) : Nat :=
  if n = 0 then 0
  else if n = 1 ∧ p0 < 0x3F then 1
  else if n = 4 then 3
  else if p0 < 0x3F then n
  else n + 1

/-- AP.DLEN (R202). The range is checked also when it is empty; only the first octet is read. -/
def execApDlen (rd ra rb : Reg) (s : State) : Host.Outcome State Fault Refusal :=
  finish (.apDlen rd ra rb) s do
    checkWindow s (s.reg ra) (s.reg rb)
    let p0 ← if 1 ≤ s.reg rb then memRead s (s.reg ra) 1 else .ok 0
    return s.setNat rd (dataLength (s.reg rb) p0)

/-- Where AP.WR stores for a payload of `n >= 1` octets whose first octet is `p0`: at `off + 1` for a float
(4 octets) and for a first octet of 0x3F or more, else at `off` (R203, R204). -/
def apWrDest (n p0 off : Nat) : Nat := if n = 4 ∨ ¬ p0 < 0x3F then off + 1 else off

/-- The octets AP.WR stores for the payload `p`, not empty (R203, R204): a packed single octet ORed into
`FB[off]`; the DPT9 word of a 4-octet binary32 pattern; any other payload as it is. -/
def apWrOctets (s : State) (p : List Byte) (p0 off : Nat) : Except Stop (List Byte) :=
  if p.length = 1 ∧ p0 < 0x3F then do
    let o ← memRead s off 1
    return beOctets 1 (o ||| p0)
  else if p.length = 4 then do
    let w ← d9EncodeF32 s.config.d9Round (beNat p)
    return beOctets 2 w
  else return p

/-- AP.WR's pseudocode (R204): every read before any write (20_memory.md R68); an empty payload writes nothing
and `off` is not examined (R203). -/
def apWrBody (ra rb rc : Reg) (s : State) : Except Stop State := do
  let p ← memReadOctets s (s.reg ra) (s.reg rb)
  let p0 := (p.headD 0).toNat
  if s.reg rb = 0 then return s
  let q ← apWrOctets s p p0 (s.reg rc)
  memWriteOctets s (apWrDest (s.reg rb) p0 (s.reg rc)) q

/-- AP.WR (R204). -/
def execApWr (ra rb rc : Reg) (s : State) : Host.Outcome State Fault Refusal :=
  finish (.apWr ra rb rc) s (apWrBody ra rb rc s)

/-- The APDU is at least as long as its class needs (R206). -/
def checkApduLength (al need : Nat) : Except Stop Unit := if al < need then raise .frameTooShort else .ok ()

/-- AP.RD's result: `x[rd]`, RKIND and RLEN (R206; 10_state.md R41, R42). -/
def apRdResult (rd : Reg) (v : Word) (kind len : Nat) (s : State) : State :=
  { s.setReg rd v with rkind := BitVec.ofNat 32 kind, rlen := BitVec.ofNat 32 len }

/-- AP.RD's pseudocode (R205, R206). -/
def apRdBody (rd ra rb rc : Reg) (s : State) : Except Stop State := do
  let ab := s.reg ra
  let al := s.reg rb
  checkWindow s ab al
  match s.reg rc with
  | 0 => return apRdResult rd 0 0 0 s
  | 1 =>
    checkApduLength al 2
    let o ← memRead s (ab + 1) 1
    return apRdResult rd (BitVec.ofNat 32 (o &&& 0x3F)) 1 1 s
  | 2 =>
    checkApduLength al 3
    let o ← memRead s (ab + 2) 1
    return apRdResult rd (BitVec.ofNat 32 o) 2 1 s
  | 3 =>
    checkApduLength al 4
    let w ← memRead s (ab + 2) 2
    return apRdResult rd (BitVec.ofInt 32 (d9Decode w)) 3 2 s
  | _ => return apRdResult rd (BitVec.ofNat 32 ab) 4 al s

/-- AP.RD (R206). -/
def execApRd (rd ra rb rc : Reg) (s : State) : Host.Outcome State Fault Refusal :=
  finish (.apRd rd ra rb rc) s (apRdBody rd ra rb rc s)

end Sys2Proof.Machine
end

