-- ==== Sys2Proof/Machine/BitField.lean ====
section
/-! DEFINITION. The bit-field functions and BF.GET, BF.SET (41_bitfield.md R120 to R122). -/

namespace Sys2Proof.Machine

/-- The width of the range `(hi, lo)` (R120). -/
def bfWidth (hi lo : Nat) : Nat := hi - lo + 1

/-- `mask(hi, lo) = (2^w - 1) << lo` (R120). -/
def bfMask (hi lo : Nat) : Nat := (2 ^ bfWidth hi lo - 1) <<< lo

/-- `bf_get(o, hi, lo) = (o >> lo) & (2^w - 1)` (R120). -/
def bfGetNat (o hi lo : Nat) : Nat := (o >>> lo) &&& (2 ^ bfWidth hi lo - 1)

/-- `bf_set(o, hi, lo, v) = (o & (0xFF ^ mask(hi, lo))) | (v << lo)` (R120). -/
def bfSetNat (o hi lo v : Nat) : Nat := (o &&& (0xFF ^^^ bfMask hi lo)) ||| (v <<< lo)

/-- A getter of the range `(hi, lo)` of the octet in `x[ra]` (R121; 42_control_field.md R132 to R135). -/
def getFieldBody (hi lo : Nat) (rd ra : Reg) (s : State) : Except Stop State := do
  let o ← oct (s.reg ra)
  return s.setNat rd (bfGetNat o hi lo)

/-- A setter of the range `(hi, lo)` of the octet in `x[ra]` to `x[rb]`, which raises `e` above `bound`; the
carrier is checked before the value (R122; 42_control_field.md R136 to R139). -/
def setFieldBody (hi lo bound : Nat) (e : ErrorKind) (rd ra rb : Reg) (s : State) : Except Stop State := do
  let o ← oct (s.reg ra)
  let v ← atMost bound e (s.reg rb)
  return s.setNat rd (bfSetNat o hi lo v)

/-- The range of a bit-field command: `hi < lo` is IllegalCommand (R121, R122), before any other check. -/
def checkRange (hi lo : Fin 8) : Except Stop Unit := if hi < lo then raise .illegalCommand else .ok ()

/-- BF.GET (R121). -/
def execBfGet (rd ra : Reg) (hi lo : Fin 8) (s : State) : Host.Outcome State Fault Refusal :=
  finish (.bfGet rd ra hi lo) s do
    checkRange hi lo
    getFieldBody hi.val lo.val rd ra s

/-- BF.SET (R122): RangeError if `x[rb] >= 2^w`. -/
def execBfSet (rd ra rb : Reg) (hi lo : Fin 8) (s : State) : Host.Outcome State Fault Refusal :=
  finish (.bfSet rd ra rb hi lo) s do
    checkRange hi lo
    setFieldBody hi.val lo.val (2 ^ bfWidth hi.val lo.val - 1) .rangeError rd ra rb s

end Sys2Proof.Machine
end

