-- ==== Sys2Proof/Machine/Buffer.lean ====
section
/-! DEFINITION. Frame-buffer loads and stores (40_system_and_buffer.md R104 to R110). -/

namespace Sys2Proof.Machine

/-- A load of `n` octets: `x[rd] <- zext_32(MemRead(ea, n))` (R104 to R107). -/
def loadBody (n : Nat) (rd ra : Reg) (imm : Byte) (s : State) : Except Stop State := do
  let v ← memRead s (effAddr s ra imm) n
  return s.setNat rd v

/-- A store of `n` octets of a value that passes its check `carrier`: `MemWrite(ea, n, v)` (R104, R108 to R110).
The value check comes before the window check. -/
def storeBody (n : Nat) (carrier : Nat → Except Stop Nat) (rb ra : Reg) (imm : Byte) (s : State) :
    Except Stop State := do
  let v ← carrier (s.reg rb)
  memWrite s (effAddr s ra imm) n v

/-- LDO (R105). -/
def execLdo (rd ra : Reg) (imm : Byte) (s : State) : Host.Outcome State Fault Refusal :=
  finish (.ldo rd ra imm) s (loadBody 1 rd ra imm s)

/-- LD16 (R106). -/
def execLd16 (rd ra : Reg) (imm : Byte) (s : State) : Host.Outcome State Fault Refusal :=
  finish (.ld16 rd ra imm) s (loadBody 2 rd ra imm s)

/-- LD32 (R107). -/
def execLd32 (rd ra : Reg) (imm : Byte) (s : State) : Host.Outcome State Fault Refusal :=
  finish (.ld32 rd ra imm) s (loadBody 4 rd ra imm s)

/-- STO (R108). -/
def execSto (rb ra : Reg) (imm : Byte) (s : State) : Host.Outcome State Fault Refusal :=
  finish (.sto rb ra imm) s (storeBody 1 oct rb ra imm s)

/-- ST16 (R109). -/
def execSt16 (rb ra : Reg) (imm : Byte) (s : State) : Host.Outcome State Fault Refusal :=
  finish (.st16 rb ra imm) s (storeBody 2 u16 rb ra imm s)

/-- ST32 (R110): every register value is storable. -/
def execSt32 (rb ra : Reg) (imm : Byte) (s : State) : Host.Outcome State Fault Refusal :=
  finish (.st32 rb ra imm) s (storeBody 4 .ok rb ra imm s)

end Sys2Proof.Machine
end

