-- ==== Sys2Proof/Machine/ControlField.lean ====
section
/-! DEFINITION. The control field (42_control_field.md): frameType bit 7, repeat bit 6, priority bits 5:4,
telegramType bits 3:0 (R130). -/

namespace Sys2Proof.Machine

/-- CF.GFT, get frameType (R132). -/
def execCfGft (rd ra : Reg) (s : State) : Host.Outcome State Fault Refusal :=
  finish (.cfGft rd ra) s (getFieldBody 7 7 rd ra s)

/-- CF.GRP, get repeat (R133). -/
def execCfGrp (rd ra : Reg) (s : State) : Host.Outcome State Fault Refusal :=
  finish (.cfGrp rd ra) s (getFieldBody 6 6 rd ra s)

/-- CF.GPR, get priority (R134). -/
def execCfGpr (rd ra : Reg) (s : State) : Host.Outcome State Fault Refusal :=
  finish (.cfGpr rd ra) s (getFieldBody 5 4 rd ra s)

/-- CF.GTT, get telegramType (R135). -/
def execCfGtt (rd ra : Reg) (s : State) : Host.Outcome State Fault Refusal :=
  finish (.cfGtt rd ra) s (getFieldBody 3 0 rd ra s)

/-- CF.SFT, set frameType (R136): an enumeration, so a value above 1 is UnsupportedType. -/
def execCfSft (rd ra rb : Reg) (s : State) : Host.Outcome State Fault Refusal :=
  finish (.cfSft rd ra rb) s (setFieldBody 7 7 1 .unsupportedType rd ra rb s)

/-- CF.SRP, set repeat (R137): a boolean, so a value above 1 is RangeError. -/
def execCfSrp (rd ra rb : Reg) (s : State) : Host.Outcome State Fault Refusal :=
  finish (.cfSrp rd ra rb) s (setFieldBody 6 6 1 .rangeError rd ra rb s)

/-- CF.SPR, set priority (R138): an enumeration, so a value above 3 is UnsupportedType. -/
def execCfSpr (rd ra rb : Reg) (s : State) : Host.Outcome State Fault Refusal :=
  finish (.cfSpr rd ra rb) s (setFieldBody 5 4 3 .unsupportedType rd ra rb s)

/-- CF.STT, set telegramType (R139): a numeric tag, so a value above 15 is RangeError. -/
def execCfStt (rd ra rb : Reg) (s : State) : Host.Outcome State Fault Refusal :=
  finish (.cfStt rd ra rb) s (setFieldBody 3 0 15 .rangeError rd ra rb s)

end Sys2Proof.Machine
end

