-- ==== Sys2Proof/Machine/Dpt.lean ====
section
/-! DEFINITION. The datapoint-type commands DPT.ENC and DPT.DEC (47_dpt_general.md R250 to R280). -/

namespace Sys2Proof.Machine

/-- The number of octets of a datapoint type (R250). -/
def dptWidth : Dpt → Nat
  | .bool => 1
  | .dimming => 1
  | .unsigned8 => 1
  | .signed8 => 1
  | .unsigned16 => 2
  | .signed16 => 2
  | .float16 => 2
  | .time => 3
  | .date => 3
  | .unsigned32 => 4
  | .signed32 => 4
  | .float32 => 4
  | .rgb => 3

/-- `v mod 2^n` of a register's signed value, RangeError outside the n-bit signed range (R260, R264). -/
def encodeSigned (n v : Nat) : Except Stop Nat :=
  let i := toS32 v
  if i < -(2 ^ (n - 1) : Int) ∨ i > 2 ^ (n - 1) - 1 then raise .rangeError else .ok (i % 2 ^ n).toNat

/-- The date triple, day 5 bits, month 4 bits, year offset 7 bits: RangeError if a field does not fit
(R270, R271). -/
def checkDate (t : Nat) : Except Stop Nat :=
  if bits t 23 16 > 31 ∨ bits t 15 8 > 15 ∨ bits t 7 0 > 127 then raise .rangeError else .ok t

/-- `encode_sel(v)`: the value register's content as a big-endian number of the type's width. -/
def dptEncode (mode : Rounding) (v : Nat) : Dpt → Except Stop Nat
  | .bool => atMost 1 .rangeError v                                  -- R254
  | .dimming => atMost 15 .rangeError v                              -- R256
  | .unsigned8 => atMost 255 .rangeError v                           -- R258
  | .signed8 => encodeSigned 8 v                                     -- R260
  | .unsigned16 => atMost 65535 .rangeError v                        -- R262
  | .signed16 => encodeSigned 16 v                                   -- R264
  | .float16 => d9Encode mode (toS32 v) 1                            -- R266
  | .time => (u24 v).map fun t => t &&& 0x1F3F3F                     -- R268
  | .date => (u24 v).bind checkDate                                  -- R270
  | .unsigned32 => .ok v                                             -- R272
  | .signed32 => .ok v                                               -- R274
  | .float32 => .ok v                                                -- R276
  | .rgb => u24 v                                                    -- R278

/-- `decode_sel(o)`: the register form of the octets' big-endian number. -/
def dptDecode (o : Nat) : Dpt → Except Stop Word
  | .bool => (atMost 1 .rangeError o).map (BitVec.ofNat 32)          -- R255
  | .dimming => (atMost 15 .rangeError o).map (BitVec.ofNat 32)      -- R257
  | .unsigned8 => .ok (BitVec.ofNat 32 o)                            -- R259
  | .signed8 => .ok (BitVec.ofInt 32 (sext 8 o))                     -- R261
  | .unsigned16 => .ok (BitVec.ofNat 32 o)                           -- R263
  | .signed16 => .ok (BitVec.ofInt 32 (sext 16 o))                   -- R265
  | .float16 => .ok (BitVec.ofInt 32 (d9Decode o))                   -- R267
  | .time => .ok (BitVec.ofNat 32 (o &&& 0x1F3F3F))                  -- R269
  | .date => (checkDate o).map (BitVec.ofNat 32)                     -- R271
  | .unsigned32 => .ok (BitVec.ofNat 32 o)                           -- R273
  | .signed32 => .ok (BitVec.ofNat 32 o)                             -- R275
  | .float32 => .ok (BitVec.ofNat 32 o)                              -- R277
  | .rgb => .ok (BitVec.ofNat 32 o)                                  -- R279

/-- DPT.ENC's pseudocode for a defined selector (R251): the value check comes before the window check. -/
def dptEncBody (d : Dpt) (rd ra rb : Reg) (s : State) : Except Stop State := do
  let o ← dptEncode s.config.d9Round (s.reg ra) d
  let t ← memWrite s (s.reg rb) (dptWidth d) o
  return t.setNat rd (dptWidth d)

/-- The length of the buffer handed to DPT.DEC: FrameTooShort if shorter than the type, RangeError if longer
(R252). -/
def checkDptLength (len n : Nat) : Except Stop Unit :=
  if len < n then raise .frameTooShort else if len > n then raise .rangeError else .ok ()

/-- DPT.DEC's pseudocode for a defined selector (R252). -/
def dptDecBody (d : Dpt) (rd ra rb : Reg) (s : State) : Except Stop State := do
  checkWindow s (s.reg ra) (s.reg rb)
  checkDptLength (s.reg rb) (dptWidth d)
  let o ← memRead s (s.reg ra) (dptWidth d)
  let v ← dptDecode o d
  return s.setReg rd v

/-- DPT.ENC rd, ra, rb, 1: boolean (R251, R254). -/
def execDptEnc1 (rd ra rb : Reg) (s : State) : Host.Outcome State Fault Refusal :=
  finish (.dptEnc1 rd ra rb) s (dptEncBody .bool rd ra rb s)

/-- DPT.ENC rd, ra, rb, 3: 4-bit step and dimming (R251, R256). -/
def execDptEnc3 (rd ra rb : Reg) (s : State) : Host.Outcome State Fault Refusal :=
  finish (.dptEnc3 rd ra rb) s (dptEncBody .dimming rd ra rb s)

/-- DPT.ENC rd, ra, rb, 5: 1-octet unsigned (R251, R258). -/
def execDptEnc5 (rd ra rb : Reg) (s : State) : Host.Outcome State Fault Refusal :=
  finish (.dptEnc5 rd ra rb) s (dptEncBody .unsigned8 rd ra rb s)

/-- DPT.ENC rd, ra, rb, 6: 1-octet signed (R251, R260). -/
def execDptEnc6 (rd ra rb : Reg) (s : State) : Host.Outcome State Fault Refusal :=
  finish (.dptEnc6 rd ra rb) s (dptEncBody .signed8 rd ra rb s)

/-- DPT.ENC rd, ra, rb, 7: 2-octet unsigned (R251, R262). -/
def execDptEnc7 (rd ra rb : Reg) (s : State) : Host.Outcome State Fault Refusal :=
  finish (.dptEnc7 rd ra rb) s (dptEncBody .unsigned16 rd ra rb s)

/-- DPT.ENC rd, ra, rb, 8: 2-octet signed (R251, R264). -/
def execDptEnc8 (rd ra rb : Reg) (s : State) : Host.Outcome State Fault Refusal :=
  finish (.dptEnc8 rd ra rb) s (dptEncBody .signed16 rd ra rb s)

/-- DPT.ENC rd, ra, rb, 9: 2-octet float (R251, R266). -/
def execDptEnc9 (rd ra rb : Reg) (s : State) : Host.Outcome State Fault Refusal :=
  finish (.dptEnc9 rd ra rb) s (dptEncBody .float16 rd ra rb s)

/-- DPT.ENC rd, ra, rb, 10: time of day (R251, R268). -/
def execDptEnc10 (rd ra rb : Reg) (s : State) : Host.Outcome State Fault Refusal :=
  finish (.dptEnc10 rd ra rb) s (dptEncBody .time rd ra rb s)

/-- DPT.ENC rd, ra, rb, 11: date (R251, R270). -/
def execDptEnc11 (rd ra rb : Reg) (s : State) : Host.Outcome State Fault Refusal :=
  finish (.dptEnc11 rd ra rb) s (dptEncBody .date rd ra rb s)

/-- DPT.ENC rd, ra, rb, 12: 4-octet unsigned (R251, R272). -/
def execDptEnc12 (rd ra rb : Reg) (s : State) : Host.Outcome State Fault Refusal :=
  finish (.dptEnc12 rd ra rb) s (dptEncBody .unsigned32 rd ra rb s)

/-- DPT.ENC rd, ra, rb, 13: 4-octet signed (R251, R274). -/
def execDptEnc13 (rd ra rb : Reg) (s : State) : Host.Outcome State Fault Refusal :=
  finish (.dptEnc13 rd ra rb) s (dptEncBody .signed32 rd ra rb s)

/-- DPT.ENC rd, ra, rb, 14: 4-octet IEEE float (R251, R276). -/
def execDptEnc14 (rd ra rb : Reg) (s : State) : Host.Outcome State Fault Refusal :=
  finish (.dptEnc14 rd ra rb) s (dptEncBody .float32 rd ra rb s)

/-- DPT.ENC rd, ra, rb, 232: RGB (R251, R278). -/
def execDptEnc232 (rd ra rb : Reg) (s : State) : Host.Outcome State Fault Refusal :=
  finish (.dptEnc232 rd ra rb) s (dptEncBody .rgb rd ra rb s)

/-- DPT.ENC with any other selector: UnsupportedType, before any register value and the window are checked
(R251, R280). -/
def execDptEncOther (rd ra rb : Reg) (sel : Byte) (s : State) : Host.Outcome State Fault Refusal :=
  finish (.dptEncOther rd ra rb sel) s (raise .unsupportedType)

/-- DPT.DEC rd, ra, rb, 1: boolean (R252, R255). -/
def execDptDec1 (rd ra rb : Reg) (s : State) : Host.Outcome State Fault Refusal :=
  finish (.dptDec1 rd ra rb) s (dptDecBody .bool rd ra rb s)

/-- DPT.DEC rd, ra, rb, 3: 4-bit step and dimming (R252, R257). -/
def execDptDec3 (rd ra rb : Reg) (s : State) : Host.Outcome State Fault Refusal :=
  finish (.dptDec3 rd ra rb) s (dptDecBody .dimming rd ra rb s)

/-- DPT.DEC rd, ra, rb, 5: 1-octet unsigned (R252, R259). -/
def execDptDec5 (rd ra rb : Reg) (s : State) : Host.Outcome State Fault Refusal :=
  finish (.dptDec5 rd ra rb) s (dptDecBody .unsigned8 rd ra rb s)

/-- DPT.DEC rd, ra, rb, 6: 1-octet signed (R252, R261). -/
def execDptDec6 (rd ra rb : Reg) (s : State) : Host.Outcome State Fault Refusal :=
  finish (.dptDec6 rd ra rb) s (dptDecBody .signed8 rd ra rb s)

/-- DPT.DEC rd, ra, rb, 7: 2-octet unsigned (R252, R263). -/
def execDptDec7 (rd ra rb : Reg) (s : State) : Host.Outcome State Fault Refusal :=
  finish (.dptDec7 rd ra rb) s (dptDecBody .unsigned16 rd ra rb s)

/-- DPT.DEC rd, ra, rb, 8: 2-octet signed (R252, R265). -/
def execDptDec8 (rd ra rb : Reg) (s : State) : Host.Outcome State Fault Refusal :=
  finish (.dptDec8 rd ra rb) s (dptDecBody .signed16 rd ra rb s)

/-- DPT.DEC rd, ra, rb, 9: 2-octet float (R252, R267). -/
def execDptDec9 (rd ra rb : Reg) (s : State) : Host.Outcome State Fault Refusal :=
  finish (.dptDec9 rd ra rb) s (dptDecBody .float16 rd ra rb s)

/-- DPT.DEC rd, ra, rb, 10: time of day (R252, R269). -/
def execDptDec10 (rd ra rb : Reg) (s : State) : Host.Outcome State Fault Refusal :=
  finish (.dptDec10 rd ra rb) s (dptDecBody .time rd ra rb s)

/-- DPT.DEC rd, ra, rb, 11: date (R252, R271). -/
def execDptDec11 (rd ra rb : Reg) (s : State) : Host.Outcome State Fault Refusal :=
  finish (.dptDec11 rd ra rb) s (dptDecBody .date rd ra rb s)

/-- DPT.DEC rd, ra, rb, 12: 4-octet unsigned (R252, R273). -/
def execDptDec12 (rd ra rb : Reg) (s : State) : Host.Outcome State Fault Refusal :=
  finish (.dptDec12 rd ra rb) s (dptDecBody .unsigned32 rd ra rb s)

/-- DPT.DEC rd, ra, rb, 13: 4-octet signed (R252, R275). -/
def execDptDec13 (rd ra rb : Reg) (s : State) : Host.Outcome State Fault Refusal :=
  finish (.dptDec13 rd ra rb) s (dptDecBody .signed32 rd ra rb s)

/-- DPT.DEC rd, ra, rb, 14: 4-octet IEEE float (R252, R277). -/
def execDptDec14 (rd ra rb : Reg) (s : State) : Host.Outcome State Fault Refusal :=
  finish (.dptDec14 rd ra rb) s (dptDecBody .float32 rd ra rb s)

/-- DPT.DEC rd, ra, rb, 232: RGB (R252, R279). -/
def execDptDec232 (rd ra rb : Reg) (s : State) : Host.Outcome State Fault Refusal :=
  finish (.dptDec232 rd ra rb) s (dptDecBody .rgb rd ra rb s)

/-- DPT.DEC with any other selector: UnsupportedType, before any register value and the window are checked
(R252, R280). -/
def execDptDecOther (rd ra rb : Reg) (sel : Byte) (s : State) : Host.Outcome State Fault Refusal :=
  finish (.dptDecOther rd ra rb sel) s (raise .unsupportedType)

end Sys2Proof.Machine
end

