-- ==== Sys2Proof/Machine/ExtControlField.lean ====
section
/-! DEFINITION. The extended control field (43_extended_control_field.md): addressType bit 7, hopCount bits
6:3, bits 2:1 without a name, extendedFrameFormat bit 0 (R150). -/

namespace Sys2Proof.Machine

/-- ECF.GAT, get addressType (R152). -/
def execEcfGat (rd ra : Reg) (s : State) : Host.Outcome State Fault Refusal :=
  finish (.ecfGat rd ra) s (getFieldBody 7 7 rd ra s)

/-- ECF.GHC, get hopCount (R153). -/
def execEcfGhc (rd ra : Reg) (s : State) : Host.Outcome State Fault Refusal :=
  finish (.ecfGhc rd ra) s (getFieldBody 6 3 rd ra s)

/-- ECF.GEF, get extendedFrameFormat (R154). -/
def execEcfGef (rd ra : Reg) (s : State) : Host.Outcome State Fault Refusal :=
  finish (.ecfGef rd ra) s (getFieldBody 0 0 rd ra s)

/-- ECF.SAT, set addressType (R155): an enumeration, so a value above 1 is UnsupportedType. -/
def execEcfSat (rd ra rb : Reg) (s : State) : Host.Outcome State Fault Refusal :=
  finish (.ecfSat rd ra rb) s (setFieldBody 7 7 1 .unsupportedType rd ra rb s)

/-- ECF.SHC, set hopCount (R156): RangeError above 15. -/
def execEcfShc (rd ra rb : Reg) (s : State) : Host.Outcome State Fault Refusal :=
  finish (.ecfShc rd ra rb) s (setFieldBody 6 3 15 .rangeError rd ra rb s)

/-- ECF.SEF, set extendedFrameFormat (R157): a boolean, so a value above 1 is RangeError. -/
def execEcfSef (rd ra rb : Reg) (s : State) : Host.Outcome State Fault Refusal :=
  finish (.ecfSef rd ra rb) s (setFieldBody 0 0 1 .rangeError rd ra rb s)

end Sys2Proof.Machine
end

