-- ==== Sys2Proof/Machine/System.lean ====
section
/-! DEFINITION. NOP, LI, CSRR, CSRW (40_system_and_buffer.md R100 to R103). -/

namespace Sys2Proof.Machine

/-- `x[rd] <- csr[imm]`, the value the CSR had before the command (40_system_and_buffer.md R102). -/
def csrrBody (n : Csr) (rd : Reg) (s : State) : Except Stop State := .ok (s.setReg rd (s.csr n))

/-- NOP (R100). -/
def execNop (s : State) : Host.Outcome State Fault Refusal := finish .nop s (.ok s)

/-- LI: `x[rd] <- zext_32(imm)` (R101). -/
def execLi (rd : Reg) (imm : Byte) (s : State) : Host.Outcome State Fault Refusal :=
  finish (.li rd imm) s (.ok (s.setNat rd imm.toNat))

/-- CSRR rd, LASTERR (R102): the code of the previous command, and then LASTERR is 0. -/
def execCsrrLasterr (rd : Reg) (s : State) : Host.Outcome State Fault Refusal :=
  finish (.csrrLasterr rd) s (csrrBody .lasterr rd s)

/-- CSRR rd, FAULTS (R102). -/
def execCsrrFaults (rd : Reg) (s : State) : Host.Outcome State Fault Refusal :=
  finish (.csrrFaults rd) s (csrrBody .faults rd s)

/-- CSRR rd, ERRCMD (R102). -/
def execCsrrErrcmd (rd : Reg) (s : State) : Host.Outcome State Fault Refusal :=
  finish (.csrrErrcmd rd) s (csrrBody .errcmd rd s)

/-- CSRR rd, FLEN (R102). -/
def execCsrrFlen (rd : Reg) (s : State) : Host.Outcome State Fault Refusal :=
  finish (.csrrFlen rd) s (csrrBody .flen rd s)

/-- CSRR rd, RKIND (R102). -/
def execCsrrRkind (rd : Reg) (s : State) : Host.Outcome State Fault Refusal :=
  finish (.csrrRkind rd) s (csrrBody .rkind rd s)

/-- CSRR rd, RLEN (R102). -/
def execCsrrRlen (rd : Reg) (s : State) : Host.Outcome State Fault Refusal :=
  finish (.csrrRlen rd) s (csrrBody .rlen rd s)

/-- CSRW FAULTS, ra: clears the bits 1 to 6 that are 1 in `x[ra]` (R103; 10_state.md R38). -/
def execCsrwFaults (ra : Reg) (s : State) : Host.Outcome State Fault Refusal :=
  finish (.csrwFaults ra) s (.ok { s with faults := clearFaults s.faults (s.x.get ra) })

/-- CSRW FLEN, ra: RangeError above FB_BYTES (R103; 10_state.md R40). -/
def execCsrwFlen (ra : Reg) (s : State) : Host.Outcome State Fault Refusal :=
  finish (.csrwFlen ra) s do
    let _ ← atMost s.config.fbBytes .rangeError (s.reg ra)
    return { s with flen := s.x.get ra }

end Sys2Proof.Machine
end

