-- ==== Sys2Proof/Machine/Dispatch.lean ====
section
/-! DEFINITION. The meaning of every command, one arm per constructor. -/

namespace Sys2Proof.Machine

def exec (i : Instr) (s : State) : Host.Outcome State Fault Refusal :=
  match i with
  | .nop => Sys2Proof.Machine.execNop s
  | .li rd imm => Sys2Proof.Machine.execLi rd imm s
  | .csrrLasterr rd => Sys2Proof.Machine.execCsrrLasterr rd s
  | .csrrFaults rd => Sys2Proof.Machine.execCsrrFaults rd s
  | .csrrErrcmd rd => Sys2Proof.Machine.execCsrrErrcmd rd s
  | .csrrFlen rd => Sys2Proof.Machine.execCsrrFlen rd s
  | .csrrRkind rd => Sys2Proof.Machine.execCsrrRkind rd s
  | .csrrRlen rd => Sys2Proof.Machine.execCsrrRlen rd s
  | .csrwFaults ra => Sys2Proof.Machine.execCsrwFaults ra s
  | .csrwFlen ra => Sys2Proof.Machine.execCsrwFlen ra s
  | .ldo rd ra imm => Sys2Proof.Machine.execLdo rd ra imm s
  | .ld16 rd ra imm => Sys2Proof.Machine.execLd16 rd ra imm s
  | .ld32 rd ra imm => Sys2Proof.Machine.execLd32 rd ra imm s
  | .sto rb ra imm => Sys2Proof.Machine.execSto rb ra imm s
  | .st16 rb ra imm => Sys2Proof.Machine.execSt16 rb ra imm s
  | .st32 rb ra imm => Sys2Proof.Machine.execSt32 rb ra imm s
  | .bfGet rd ra hi lo => Sys2Proof.Machine.execBfGet rd ra hi lo s
  | .bfSet rd ra rb hi lo => Sys2Proof.Machine.execBfSet rd ra rb hi lo s
  | .cfGft rd ra => Sys2Proof.Machine.execCfGft rd ra s
  | .cfGrp rd ra => Sys2Proof.Machine.execCfGrp rd ra s
  | .cfGpr rd ra => Sys2Proof.Machine.execCfGpr rd ra s
  | .cfGtt rd ra => Sys2Proof.Machine.execCfGtt rd ra s
  | .cfSft rd ra rb => Sys2Proof.Machine.execCfSft rd ra rb s
  | .cfSrp rd ra rb => Sys2Proof.Machine.execCfSrp rd ra rb s
  | .cfSpr rd ra rb => Sys2Proof.Machine.execCfSpr rd ra rb s
  | .cfStt rd ra rb => Sys2Proof.Machine.execCfStt rd ra rb s
  | .ecfGat rd ra => Sys2Proof.Machine.execEcfGat rd ra s
  | .ecfGhc rd ra => Sys2Proof.Machine.execEcfGhc rd ra s
  | .ecfGef rd ra => Sys2Proof.Machine.execEcfGef rd ra s
  | .ecfSat rd ra rb => Sys2Proof.Machine.execEcfSat rd ra rb s
  | .ecfShc rd ra rb => Sys2Proof.Machine.execEcfShc rd ra rb s
  | .ecfSef rd ra rb => Sys2Proof.Machine.execEcfSef rd ra rb s
  | .adPki rd ra rb rc => Sys2Proof.Machine.execAdPki rd ra rb rc s
  | .adPk2 rd ra rb => Sys2Proof.Machine.execAdPk2 rd ra rb s
  | .adPk3 rd ra rb rc => Sys2Proof.Machine.execAdPk3 rd ra rb rc s
  | .adGetIndArea rd ra => Sys2Proof.Machine.execAdGetIndArea rd ra s
  | .adGetIndLine rd ra => Sys2Proof.Machine.execAdGetIndLine rd ra s
  | .adGetIndDev rd ra => Sys2Proof.Machine.execAdGetIndDev rd ra s
  | .adGetG2Main rd ra => Sys2Proof.Machine.execAdGetG2Main rd ra s
  | .adGetG2Sub rd ra => Sys2Proof.Machine.execAdGetG2Sub rd ra s
  | .adGetG3Main rd ra => Sys2Proof.Machine.execAdGetG3Main rd ra s
  | .adGetG3Mid rd ra => Sys2Proof.Machine.execAdGetG3Mid rd ra s
  | .adGetG3Sub rd ra => Sys2Proof.Machine.execAdGetG3Sub rd ra s
  | .apDlen rd ra rb => Sys2Proof.Machine.execApDlen rd ra rb s
  | .apWr ra rb rc => Sys2Proof.Machine.execApWr ra rb rc s
  | .apRd rd ra rb rc => Sys2Proof.Machine.execApRd rd ra rb rc s
  | .d9Dec rd ra => Sys2Proof.Machine.execD9Dec rd ra s
  | .d9Encf rd ra => Sys2Proof.Machine.execD9Encf rd ra s
  | .d9Encc rd ra => Sys2Proof.Machine.execD9Encc rd ra s
  | .dptEnc1 rd ra rb => Sys2Proof.Machine.execDptEnc1 rd ra rb s
  | .dptEnc3 rd ra rb => Sys2Proof.Machine.execDptEnc3 rd ra rb s
  | .dptEnc5 rd ra rb => Sys2Proof.Machine.execDptEnc5 rd ra rb s
  | .dptEnc6 rd ra rb => Sys2Proof.Machine.execDptEnc6 rd ra rb s
  | .dptEnc7 rd ra rb => Sys2Proof.Machine.execDptEnc7 rd ra rb s
  | .dptEnc8 rd ra rb => Sys2Proof.Machine.execDptEnc8 rd ra rb s
  | .dptEnc9 rd ra rb => Sys2Proof.Machine.execDptEnc9 rd ra rb s
  | .dptEnc10 rd ra rb => Sys2Proof.Machine.execDptEnc10 rd ra rb s
  | .dptEnc11 rd ra rb => Sys2Proof.Machine.execDptEnc11 rd ra rb s
  | .dptEnc12 rd ra rb => Sys2Proof.Machine.execDptEnc12 rd ra rb s
  | .dptEnc13 rd ra rb => Sys2Proof.Machine.execDptEnc13 rd ra rb s
  | .dptEnc14 rd ra rb => Sys2Proof.Machine.execDptEnc14 rd ra rb s
  | .dptEnc232 rd ra rb => Sys2Proof.Machine.execDptEnc232 rd ra rb s
  | .dptEncOther rd ra rb sel => Sys2Proof.Machine.execDptEncOther rd ra rb sel s
  | .dptDec1 rd ra rb => Sys2Proof.Machine.execDptDec1 rd ra rb s
  | .dptDec3 rd ra rb => Sys2Proof.Machine.execDptDec3 rd ra rb s
  | .dptDec5 rd ra rb => Sys2Proof.Machine.execDptDec5 rd ra rb s
  | .dptDec6 rd ra rb => Sys2Proof.Machine.execDptDec6 rd ra rb s
  | .dptDec7 rd ra rb => Sys2Proof.Machine.execDptDec7 rd ra rb s
  | .dptDec8 rd ra rb => Sys2Proof.Machine.execDptDec8 rd ra rb s
  | .dptDec9 rd ra rb => Sys2Proof.Machine.execDptDec9 rd ra rb s
  | .dptDec10 rd ra rb => Sys2Proof.Machine.execDptDec10 rd ra rb s
  | .dptDec11 rd ra rb => Sys2Proof.Machine.execDptDec11 rd ra rb s
  | .dptDec12 rd ra rb => Sys2Proof.Machine.execDptDec12 rd ra rb s
  | .dptDec13 rd ra rb => Sys2Proof.Machine.execDptDec13 rd ra rb s
  | .dptDec14 rd ra rb => Sys2Proof.Machine.execDptDec14 rd ra rb s
  | .dptDec232 rd ra rb => Sys2Proof.Machine.execDptDec232 rd ra rb s
  | .dptDecOther rd ra rb sel => Sys2Proof.Machine.execDptDecOther rd ra rb sel s

end Sys2Proof.Machine
end

