-- ==== Sys2Proof/Machine/HostPort.lean ====
section
/-! DEFINITION. The host port: what each action of the host does (10_state.md R46). -/

namespace Sys2Proof.Machine

/-- HostIssue: the unit executes the word as one step; a word that is no legal encoding raises IllegalCommand and
changes nothing else (30_encoding.md R87, R89). -/
def issueWord (w : Word) (s : State) : Host.Outcome State Fault Refusal :=
  match decode w with
  | .ok i => exec i s
  | .error _ => .next (s.raiseError .illegalCommand w)

/-- HostWriteCSR: as CSRW, but a write the rules forbid is ignored (10_state.md R36 to R42, R46;
93_implementation_defined.md U11). -/
def hostWriteCsr (n : Csr) (v : Word) (s : State) : State :=
  match n with
  | .lasterr => s
  | .faults => { s with faults := clearFaults s.faults v }
  | .errcmd => s
  | .flen => if v.toNat > s.config.fbBytes then s else { s with flen := v }
  | .rkind => s
  | .rlen => s

/-- HostReadReg: `x[i]`; a free value if the register has not been written since reset, and no later behaviour
depends on it (10_state.md R46; 93_implementation_defined.md U3; log entry 10). -/
def hostReadReg (i : Reg) (s : State) : State :=
  if s.xWritten.get i then { s with hostData := s.x.get i }
  else { s with hostData := Config.freeHostRead s.freeCount, freeCount := s.freeCount + 1 }

/-- HostWriteFB: `a` in 0..FB_BYTES-1, not limited by FLEN (10_state.md R46); there is no such action elsewhere
(93_implementation_defined.md U12). -/
def hostWriteFB (a : Nat) (o : Byte) (s : State) : Host.Outcome State Fault Refusal :=
  if a < s.config.fbBytes then .next { s with fb := s.fb.writeByte a o } else .refused (.noSuchHostAction a)

/-- HostReadFB: `FB[a]`, not limited by FLEN (10_state.md R46); refused for an octet without a value
(93_implementation_defined.md U2) and where there is no such action (U12). -/
def hostReadFB (a : Nat) (s : State) : Host.Outcome State Fault Refusal :=
  if a < s.config.fbBytes then
    match s.fb.readByte a with
    | some o => .next { s with hostData := o.setWidth 32 }
    | none => .refused (.unspecifiedHostRead a)
  else .refused (.noSuchHostAction a)

/-- HostReset (10_state.md R47; 70_reset_and_hazards.md R350): the unit's registers, CSRs and frame buffer are as
after power-up. The parameters, the host's coming actions and what the host has read are not the unit's and stay
(log entry 12). -/
def State.afterReset (s : State) : State :=
  { State.reset with config := s.config, host := s.host, hostData := s.hostData, freeCount := s.freeCount }

/-- One action of the host (10_state.md R46). -/
def perform (a : HostAction) (s : State) : Host.Outcome State Fault Refusal :=
  match a with
  | .writeReg i v => .next (s.setReg i v)
  | .readReg i => .next (hostReadReg i s)
  | .writeFB a o => hostWriteFB a o s
  | .readFB a => hostReadFB a s
  | .readCsr n => .next { s with hostData := s.csr n }
  | .writeCsr n v => .next (hostWriteCsr n v s)
  | .issue w => issueWord w s
  | .reset => .next s.afterReset

/-- The next action of the host, taken from the list and performed. With no action left nothing happens: the unit
does nothing but execute what the host issues (60_exceptions.md R323, R331; log entry 6). -/
def nextAction (s : State) : Host.Outcome State Fault Refusal :=
  match s.host with
  | [] => .next s
  | a :: rest => perform a { s with host := rest }

end Sys2Proof.Machine
end

