-- ==== Sys2Proof/Machine/Step.lean ====
section
/-! DEFINITION. One step: one action of the host, performed whole (20_memory.md R69; 70_reset_and_hazards.md R353). -/

namespace Sys2Proof.Machine

/-- The step function: the host's next action (10_state.md R34, R46). -/
def step (s : State) : Host.Outcome State Fault Refusal := nextAction s

/-- The host issues the word `w` of the opcode table's numbering next (log entry 7). The bits from `nbits` up are
zero. -/
def State.withFetchWord (s : State) (nbits w : Nat) : State :=
  { s with host := .issue (BitVec.ofNat 32 (w % 2 ^ nbits)) :: s.host }

end Sys2Proof.Machine
end

