-- ==== Sys2Proof/Machine/AddressText.lean ====
section
/-! DEFINITION. The host's textual address functions (44_address.md R180 to R187), as pure functions. They are no
commands and no step uses them; they end in, or start from, the number functions of the address commands
(log entry 17). -/

namespace Sys2Proof.Machine

/-- A text, as a sequence of characters (R180). -/
abbrev Text := List Char

/-- The errors of the host's address functions (60_exceptions.md R320 has the unit's; on the host InvalidAddress
carries the original text, R185). -/
inductive HostError where
  | invalidAddress (text : Text)
  | frameTooShort
deriving DecidableEq, Repr

/-- The three kinds of address (R170). -/
inductive AddrKind where
  | individual
  | group2
  | group3
deriving DecidableEq, Repr

/-- The separator of a kind's text (R181). -/
def AddrKind.separator : AddrKind → Char
  | .individual => '.'
  | .group2 => '/'
  | .group3 => '/'

/-- Step 1: the separator of a text; none if it holds both or neither (R181). -/
def textSeparator (t : Text) : Option Char :=
  if t.contains '.' then (if t.contains '/' then none else some '.')
  else (if t.contains '/' then some '/' else none)

/-- Splitting at every occurrence of the separator; parts can be empty (R182). -/
def splitText (sep : Char) : Text → List Text
  | [] => [[]]
  | c :: cs =>
    if c = sep then [] :: splitText sep cs
    else
      match splitText sep cs with
      | [] => [[c]]
      | p :: ps => (c :: p) :: ps

/-- Step 2: the kind, from the separator and the number of parts (R182). -/
def textKind (sep : Char) (parts : Nat) : Option AddrKind :=
  if sep = '.' then (if parts = 3 then some .individual else none)
  else if parts = 2 then some .group2
  else if parts = 3 then some .group3
  else none

/-- The largest number of characters of each part (R183). -/
def partMaxima : AddrKind → List Nat
  | .individual => [2, 2, 3]
  | .group2 => [2, 4]
  | .group3 => [2, 1, 3]

/-- The value of a decimal digit. -/
def digitValue (c : Char) : Option Nat :=
  if '0'.toNat ≤ c.toNat ∧ c.toNat ≤ '9'.toNat then some (c.toNat - '0'.toNat) else none

/-- The value of a sequence of digits, most significant first, continuing from `v`. -/
def digitsValue (v : Nat) : Text → Option Nat
  | [] => some v
  | c :: cs => (digitValue c).bind fun d => digitsValue (v * 10 + d) cs

/-- Steps 3 and 4 for one part: the length pre-check, then one or more decimal digits; leading zeros are accepted
(R183, R184). -/
def parsePart (maxLength : Nat) (p : Text) : Option Nat :=
  if p.length > maxLength ∨ p.length = 0 then none else digitsValue 0 p

/-- Steps 3 and 4 for all parts. -/
def parseParts : List Nat → List Text → Option (List Nat)
  | [], [] => some []
  | n :: ns, p :: ps => (parsePart n p).bind fun v => (parseParts ns ps).map fun vs => v :: vs
  | [], _ :: _ => none
  | _ :: _, [] => none

/-- Step 5: the range check and packing of AD.PKI, AD.PK2, AD.PK3 (R185; R172 to R174), which raise only
InvalidAddress. -/
def packParts : AddrKind → List Nat → Option Nat
  | .individual, [a, l, d] => (packIndividual a l d).toOption
  | .group2, [m, u] => (packGroup2 m u).toOption
  | .group3, [m, i, u] => (packGroup3 m i u).toOption
  | _, _ => none

/-- Steps 1 to 5: the kind and the 16-bit number of a text; none where a step rejects it (R181 to R185). -/
def readAddress (t : Text) : Option (AddrKind × Nat) := do
  let sep ← textSeparator t
  let k ← textKind sep (splitText sep t).length
  let vs ← parseParts (partMaxima k) (splitText sep t)
  let v ← packParts k vs
  return (k, v)

/-- `parseAddress(text) -> (kind, [hi, lo])`; every failure is the one error, carrying the original text
(R181 to R185). -/
def parseAddress (t : Text) : Except HostError (AddrKind × List Byte) :=
  match readAddress t with
  | some (k, v) => .ok (k, beOctets 2 v)
  | none => .error (.invalidAddress t)

/-- The parts AD.GET gives for a kind (R171, R175). -/
def addressParts : AddrKind → Nat → List Nat
  | .individual, v => [bits v 15 12, bits v 11 8, bits v 7 0]
  | .group2, v => [bits v 15 11, bits v 10 0]
  | .group3, v => [bits v 15 11, bits v 10 8, bits v 7 0]

/-- The decimal digits of `n`, in front of `acc`, at most `fuel` of them. -/
def decimalDigits : Nat → Nat → Text → Text
  | 0, _, acc => acc
  | fuel + 1, n, acc =>
    let t := Char.ofNat ('0'.toNat + n % 10) :: acc
    if n / 10 = 0 then t else decimalDigits fuel (n / 10) t

/-- The minimal decimal representation; zero is `0` (R186). -/
def decimal (n : Nat) : Text := decimalDigits (n + 1) n []

/-- The parts joined by the separator (R186). -/
def joinText (sep : Char) : List Text → Text
  | [] => []
  | [p] => p
  | p :: q :: ps => p ++ sep :: joinText sep (q :: ps)

/-- The text of the 16-bit value `v` (R186). -/
def formatNumber (v : Nat) (k : AddrKind) : Text := joinText k.separator ((addressParts k v).map decimal)

/-- `formatAddress([hi, lo], kind) -> text`, of the first two octets of a buffer; FrameTooShort for a shorter
buffer (R186). -/
def formatAddress : List Byte → AddrKind → Except HostError Text
  | hi :: lo :: _, k => .ok (formatNumber (beNat [hi, lo]) k)
  | [_], _ => .error .frameTooShort
  | [], _ => .error .frameTooShort

/-- Removing leading zeros from a part; one digit stays (R187). -/
def stripZeros : Text → Text
  | [] => []
  | [c] => [c]
  | c :: d :: cs => if c = '0' then stripZeros (d :: cs) else c :: d :: cs

/-- Textual normalization: leading zeros removed from each part (R187). -/
def normalizeText (sep : Char) (t : Text) : Text := joinText sep ((splitText sep t).map stripZeros)

end Sys2Proof.Machine
end

