-- ==== Sys2Proof/Safety.lean ====
section
/-! DEFINITION. When a run of the model is one the spec speaks of. -/

namespace Sys2Proof

/-- The command reads only general registers that have been written since reset. The spec says nothing of a command
that reads another (10_state.md R33; 93_implementation_defined.md U1); the model computes it on the value the
register holds at reset (log entries 1, 2). -/
def readsSpecified (i : Instr) (s : Machine.State) : Bool := (Machine.sources i).all fun r => s.xWritten.get r

/-- The next step of `s` is one the spec defines: if the host issues a legal command, it reads specified registers
only. Octets without a value need no clause here: the model refuses to read them. -/
def specifiedStep (s : Machine.State) : Bool :=
  match s.host with
  | .issue w :: _ =>
    match decode w with
    | .ok i => readsSpecified i s
    | .error _ => true
  | _ => true

/-- `n` steps from `s`, each of them one the spec defines; none if some step is not, or stops. -/
def specifiedRun : Nat → Machine.State → Option Machine.State
  | 0, s => some s
  | n + 1, s =>
    if specifiedStep s then
      match Machine.step s with
      | .next t => specifiedRun n t
      | .fault _ => none
      | .refused _ => none
    else none

/-- The invariant of the unit: a legal configuration; the reserved bits of the CSRs read as zero and their values
are in range (10_state.md R37, R38, R40, R41, R42); the frame buffer is in canonical form and holds no octet outside
0 .. FB_BYTES-1 (10_state.md R44). -/
structure UnitInv (s : Machine.State) : Prop where
  config  : s.config.legal
  lasterr : s.lasterr.toNat ≤ 6
  faults  : s.faults &&& 0x7E#32 = s.faults
  flen    : s.flen.toNat ≤ s.config.fbBytes
  rkind   : s.rkind.toNat ≤ 4
  rlen    : s.rlen.toNat ≤ s.config.fbBytes
  fbForm  : Machine.Memory.wf s.fb
  fbRange : ∀ c ∈ s.fb, c.1 < s.config.fbBytes

end Sys2Proof
end

