-- ==== Sys2Proof/Certificates/Slice0/Obligations.lean ====
section
/-! DEFINITION. The statements for the provers, from the numbered rules of spec/, and the notions they use.
A statement about a command without the premise `readsSpecified` also speaks of a command that reads a general register
nothing has written since reset; there it rests on the model's choice of log entry 1 (10_state.md R33 asks a model to
refuse). A statement about an issued word names the state with the action taken from the host's list, the model's own
list (log entry 6). -/

open Sys2Proof Sys2Proof.Machine

namespace Sys2Proof.Claims

/-! ### How a command leaves the state -/

/-- `s` after a command whose only write was `x[rd] <- v`: the register counts as written (the model's own record,
log entry 2) and LASTERR is 0 (60_exceptions.md R327). -/
def written (s : State) (rd : Reg) (v : Word) : State :=
  { s with x := s.x.set rd v, xWritten := s.xWritten.set rd true, lasterr := 0 }

/-- `s` after the command word `w` has raised the error with code `k` (60_exceptions.md R326). -/
def raised (s : State) (k : Nat) (w : Word) : State :=
  { s with lasterr := BitVec.ofNat 32 k, faults := s.faults ||| (1#32 <<< k), errcmd := w }

/-- The octets `p` stand at `a`, `a + 1`, … -/
def holds (m : Memory) (a : Nat) (p : List Byte) : Prop :=
  ∀ k, (h : k < p.length) → m.readByte (a + k) = some p[k]

/-- `m'` is `m` with the octets `p` at `a`, `a + 1`, … and every other octet as before. -/
def storedAt (m m' : Memory) (a : Nat) (p : List Byte) : Prop :=
  holds m' a p ∧ ∀ b, b < a ∨ a + p.length ≤ b → m'.readByte b = m.readByte b

/-- The command `i` completes in `s`, and all it does is store the octets `p` at `a` (and clear LASTERR). -/
def completesStoring (i : Instr) (s : State) (a : Nat) (p : List Byte) : Prop :=
  ∃ m, exec i s = .next { s with fb := m, lasterr := 0 } ∧ storedAt s.fb m a p

/-- The `n` octets of `o`, most significant first (20_memory.md R60). -/
def octets (n o : Nat) : List Byte := (List.range n).map fun k => BitVec.ofNat 8 (o / 256 ^ (n - 1 - k))

/-- `s` after AP.RD has delivered `v` of a kind and a length (45_apdu.md R206). -/
def delivered (s : State) (rd : Reg) (v : Word) (kind len : Nat) : State :=
  { s with
    x := s.x.set rd v, xWritten := s.xWritten.set rd true, lasterr := 0
    rkind := BitVec.ofNat 32 kind, rlen := BitVec.ofNat 32 len }

/-! ### Illegal words, as 30_encoding.md R86 and R87 list them -/

/-- R87 (a). -/
def undefinedOp (op : Nat) : Prop :=
  (0x04 ≤ op ∧ op ≤ 0x07) ∨ op = 0x0B ∨ op = 0x0F ∨ (0x12 ≤ op ∧ op ≤ 0x1F) ∨ op = 0x2B ∨ op = 0x2F ∨ op = 0x33 ∨
  (0x35 ≤ op ∧ op ≤ 0x3F) ∨ (0x43 ≤ op ∧ op ≤ 0x4F) ∨ (0x53 ≤ op ∧ op ≤ 0x5F) ∨ 0x62 ≤ op

/-- The bits of the fields an opcode does not use: the complement of the `uses` column of R83. -/
def unusedBits (op : Nat) : Word :=
  match op with
  | 0x00 => 0x00FFFFFF
  | 0x01 | 0x02 => 0x000FFF00
  | 0x03 => 0x00F0FF00
  | 0x08 | 0x09 | 0x0A => 0x0000FF00
  | 0x0C | 0x0D | 0x0E => 0x00F00F00
  | 0x10 => 0x0000FF00
  | 0x11 => 0x00000F00
  | 0x20 | 0x21 | 0x22 | 0x23 | 0x28 | 0x29 | 0x2A => 0x0000FFFF
  | 0x24 | 0x25 | 0x26 | 0x27 | 0x2C | 0x2D | 0x2E => 0x00000FFF
  | 0x30 | 0x32 => 0x000000FF
  | 0x31 => 0x00000FFF
  | 0x34 => 0x0000FF00
  | 0x40 => 0x00000FFF
  | 0x41 => 0x00F000FF
  | 0x42 => 0x000000FF
  | 0x50 | 0x51 | 0x52 => 0x0000FFFF
  | 0x60 | 0x61 => 0x00000F00
  | _ => 0

/-- R87 (a) to (f). -/
def illegalWord (w : Word) : Prop :=
  let op := w.toNat / 2 ^ 24
  let imm := w.toNat % 256
  undefinedOp op ∨ w &&& unusedBits op ≠ 0 ∨
  ((op = 0x10 ∨ op = 0x11) ∧ (imm.testBit 7 = true ∨ imm.testBit 3 = true ∨ imm / 16 % 8 < imm % 8)) ∨
  (op = 0x34 ∧ imm ∉ [0x00, 0x01, 0x02, 0x10, 0x11, 0x20, 0x21, 0x22]) ∨
  ((op = 0x02 ∨ op = 0x03) ∧ 5 < imm) ∨ (op = 0x03 ∧ imm ∈ [0, 2, 4, 5])

/-! ### Errors and inputs of a command -/

/-- The codes of the errors a command can raise beyond IllegalCommand (60_exceptions.md R321). -/
def errorsOf : Instr → List Nat
  | .nop | .li _ _ | .csrrLasterr _ | .csrrFaults _ | .csrrErrcmd _ | .csrrFlen _ | .csrrRkind _ | .csrrRlen _
  | .csrwFaults _ => []
  | .csrwFlen _ => [2]
  | .ldo _ _ _ | .ld16 _ _ _ | .ld32 _ _ _ | .st32 _ _ _ | .apDlen _ _ _ | .apRd _ _ _ _ => [5]
  | .sto _ _ _ | .st16 _ _ _ => [2, 5]
  | .bfGet _ _ _ _ | .bfSet _ _ _ _ _ | .cfGft _ _ | .cfGrp _ _ | .cfGpr _ _ | .cfGtt _ _ | .cfSrp _ _ _
  | .cfStt _ _ _ | .ecfGat _ _ | .ecfGhc _ _ | .ecfGef _ _ | .ecfShc _ _ _ | .ecfSef _ _ _ => [2]
  | .cfSft _ _ _ | .cfSpr _ _ _ | .ecfSat _ _ _ => [2, 3]
  | .adPki _ _ _ _ | .adPk2 _ _ _ | .adPk3 _ _ _ _ => [1]
  | .adGetIndArea _ _ | .adGetIndLine _ _ | .adGetIndDev _ _ | .adGetG2Main _ _ | .adGetG2Sub _ _
  | .adGetG3Main _ _ | .adGetG3Mid _ _ | .adGetG3Sub _ _ | .d9Dec _ _ | .d9Encc _ _ => [2]
  | .apWr _ _ _ => [5, 4, 2]
  | .d9Encf _ _ => [4, 2]
  | .dptEnc1 _ _ _ | .dptEnc3 _ _ _ | .dptEnc5 _ _ _ | .dptEnc6 _ _ _ | .dptEnc7 _ _ _ | .dptEnc8 _ _ _
  | .dptEnc9 _ _ _ | .dptEnc10 _ _ _ | .dptEnc11 _ _ _ | .dptEnc12 _ _ _ | .dptEnc13 _ _ _ | .dptEnc14 _ _ _
  | .dptEnc232 _ _ _ | .dptEncOther _ _ _ _ | .dptDec1 _ _ _ | .dptDec3 _ _ _ | .dptDec5 _ _ _ | .dptDec6 _ _ _
  | .dptDec7 _ _ _ | .dptDec8 _ _ _ | .dptDec9 _ _ _ | .dptDec10 _ _ _ | .dptDec11 _ _ _ | .dptDec12 _ _ _
  | .dptDec13 _ _ _ | .dptDec14 _ _ _ | .dptDec232 _ _ _ | .dptDecOther _ _ _ _ => [3, 2, 5]

/-- The commands that can store to the frame buffer (20_memory.md R65). -/
def storesOctets : Instr → Bool
  | .sto _ _ _ | .st16 _ _ _ | .st32 _ _ _ | .apWr _ _ _ => true
  | .dptEnc1 _ _ _ | .dptEnc3 _ _ _ | .dptEnc5 _ _ _ | .dptEnc6 _ _ _ | .dptEnc7 _ _ _ | .dptEnc8 _ _ _
  | .dptEnc9 _ _ _ | .dptEnc10 _ _ _ | .dptEnc11 _ _ _ | .dptEnc12 _ _ _ | .dptEnc13 _ _ _ | .dptEnc14 _ _ _
  | .dptEnc232 _ _ _ => true
  | _ => false

/-- The two states have the same six CSRs. -/
def sameCsrs (s t : State) : Prop :=
  s.lasterr = t.lasterr ∧ s.faults = t.faults ∧ s.errcmd = t.errcmd ∧ s.flen = t.flen ∧ s.rkind = t.rkind ∧
  s.rlen = t.rlen

/-- The two states agree on all a command may depend on: the parameters, the CSRs, the octets inside the window, and
the general registers the command reads (00_scope.md R15). -/
def sameInputs (i : Instr) (s t : State) : Prop :=
  s.config = t.config ∧ sameCsrs s t ∧ (∀ a, a < s.flen.toNat → s.fb.readByte a = t.fb.readByte a) ∧
  ∀ r ∈ sources i, s.x.get r = t.x.get r

/-! ### Bit fields -/

/-- `v` is the bits `hi` to `lo` of `o`, moved down. -/
def isField (v o : Word) (hi lo : Nat) : Prop :=
  ∀ k, k < 32 → v.getLsbD k = (decide (lo + k ≤ hi) && o.getLsbD (lo + k))

/-- `v` is `o` with the bits `hi` to `lo` replaced by the low bits of `f`. -/
def isFieldSet (v o f : Word) (hi lo : Nat) : Prop :=
  ∀ k, k < 32 → v.getLsbD k = if lo ≤ k ∧ k ≤ hi then f.getLsbD (k - lo) else o.getLsbD k

/-- The getters of the control field, with their ranges (42_control_field.md R130, R132 to R135). -/
def cfGetters : List ((Reg → Reg → Instr) × Nat × Nat) :=
  [(.cfGft, 7, 7), (.cfGrp, 6, 6), (.cfGpr, 5, 4), (.cfGtt, 3, 0)]

/-- The setters of the control field, with their ranges, the largest legal value and the error above it
(42_control_field.md R136 to R139). -/
def cfSetters : List ((Reg → Reg → Reg → Instr) × Nat × Nat × Nat × Nat) :=
  [(.cfSft, 7, 7, 1, 3), (.cfSrp, 6, 6, 1, 2), (.cfSpr, 5, 4, 3, 3), (.cfStt, 3, 0, 15, 2)]

/-- The getters of the extended control field (43_extended_control_field.md R150, R152 to R154). -/
def ecfGetters : List ((Reg → Reg → Instr) × Nat × Nat) :=
  [(.ecfGat, 7, 7), (.ecfGhc, 6, 3), (.ecfGef, 0, 0)]

/-- The setters of the extended control field (43_extended_control_field.md R155 to R157). -/
def ecfSetters : List ((Reg → Reg → Reg → Instr) × Nat × Nat × Nat × Nat) :=
  [(.ecfSat, 7, 7, 1, 3), (.ecfShc, 6, 3, 15, 2), (.ecfSef, 0, 0, 1, 2)]

/-! ### APDU length classes -/

/-- `c` is the length class of a payload of `n` octets whose first is `p0` (45_apdu.md R201). -/
def lengthClassIs (n p0 c : Nat) : Prop :=
  (n = 0 ∧ c = 0) ∨ (n = 1 ∧ p0 < 0x3F ∧ c = 1) ∨ (n = 1 ∧ 0x3F ≤ p0 ∧ c = 2) ∨ (n = 4 ∧ c = 3) ∨
  (n ≠ 0 ∧ n ≠ 1 ∧ n ≠ 4 ∧ p0 < 0x3F ∧ c = n) ∨ (n ≠ 0 ∧ n ≠ 1 ∧ n ≠ 4 ∧ 0x3F ≤ p0 ∧ c = n + 1)

/-! ### DPT9 -/

/-- The centi value of a word, by the document's own formula: the mantissa of a word with its sign bit set is
`~(m ^ 0x7FF)`, and `~a` is `-a - 1` (46_dpt9.md R222). -/
def d9Value (w : Nat) : Int :=
  (if 32768 ≤ w then -((w % 2048 ^^^ 0x7FF : Nat) : Int) - 1 else (w % 2048 : Nat)) * 2 ^ (w / 2048 % 16)

/-- A word is canonical if its exponent is 0 or its signed mantissa is outside -1024 .. 1023 (46_dpt9.md R227). -/
def d9Canonical (w : Nat) : Prop :=
  w / 2048 % 16 = 0 ∨ (w < 32768 ∧ 1024 ≤ w % 2048) ∨ (32768 ≤ w ∧ w % 2048 < 1024)

/-- `M` is the rational `t` rounded to an integer: to the nearest, a tie going away from zero or to the even
neighbour, or toward zero (00_scope.md R7; 46_dpt9.md R226). -/
def roundsTo : Rounding → ℚ → Int → Prop
  | .nearestAway, t, M => |(M : ℚ) - t| ≤ 1 / 2 ∧ (|(M : ℚ) - t| = 1 / 2 → |t| < |(M : ℚ)|)
  | .nearestEven, t, M => |(M : ℚ) - t| ≤ 1 / 2 ∧ (|(M : ℚ) - t| = 1 / 2 → Even M)
  | .towardZero, t, M => |(M : ℚ)| ≤ |t| ∧ |t| < |(M : ℚ)| + 1 ∧ 0 ≤ (M : ℚ) * t

/-- `q` fits the mantissa at the exponent `E` (46_dpt9.md R225). -/
def d9FitsAt (q : ℚ) (E : Nat) : Prop := -2048 ≤ q / 2 ^ E ∧ q / 2 ^ E ≤ 2047

/-- `w` is the DPT9 word of the rational centi value `q`: the smallest exponent that fits, the rounded mantissa, the
sign bit from the rounded mantissa (46_dpt9.md R225, R226, R227). -/
def d9Encodes (mode : Rounding) (q : ℚ) (w : Nat) : Prop :=
  ∃ (E : Nat) (M : Int), E ≤ 15 ∧ d9FitsAt q E ∧ (∀ E', E' < E → ¬ d9FitsAt q E') ∧ roundsTo mode (q / 2 ^ E) M ∧
    w = (if M < 0 then 32768 else 0) + 2048 * E + (M % 2048).toNat

/-- The value of a finite binary32 pattern (46_dpt9.md R224; log entry 16). -/
def f32Value (b : Nat) : ℚ :=
  (if b / 2 ^ 31 % 2 = 1 then -1 else 1) *
    (if b / 2 ^ 23 % 256 = 0 then (b % 2 ^ 23 : Nat) * (2 : ℚ) ^ (-149 : ℤ)
     else ((2 ^ 23 + b % 2 ^ 23 : Nat) : ℚ) * (2 : ℚ) ^ ((b / 2 ^ 23 % 256 : Nat) - 150 : ℤ))

/-- The pattern is an infinity or a NaN (46_dpt9.md R224). -/
def f32Infinite (b : Nat) : Prop := b / 2 ^ 23 % 256 = 255

/-- The centi values DPT9 can hold, up to rounding (46_dpt9.md R227). -/
def d9InRange (q : ℚ) : Prop := -67108864 ≤ q ∧ q ≤ 67076096

/-! ### Datapoint types -/

/-- DPT.ENC of a defined selector (47_dpt_general.md R250, R251). -/
def encodeOf : Dpt → Reg → Reg → Reg → Instr
  | .bool => .dptEnc1
  | .dimming => .dptEnc3
  | .unsigned8 => .dptEnc5
  | .signed8 => .dptEnc6
  | .unsigned16 => .dptEnc7
  | .signed16 => .dptEnc8
  | .float16 => .dptEnc9
  | .time => .dptEnc10
  | .date => .dptEnc11
  | .unsigned32 => .dptEnc12
  | .signed32 => .dptEnc13
  | .float32 => .dptEnc14
  | .rgb => .dptEnc232

/-- DPT.DEC of a defined selector (47_dpt_general.md R250, R252). -/
def decodeOf : Dpt → Reg → Reg → Reg → Instr
  | .bool => .dptDec1
  | .dimming => .dptDec3
  | .unsigned8 => .dptDec5
  | .signed8 => .dptDec6
  | .unsigned16 => .dptDec7
  | .signed16 => .dptDec8
  | .float16 => .dptDec9
  | .time => .dptDec10
  | .date => .dptDec11
  | .unsigned32 => .dptDec12
  | .signed32 => .dptDec13
  | .float32 => .dptDec14
  | .rgb => .dptDec232

/-- The width of a type in octets (47_dpt_general.md R250). -/
def widthOf : Dpt → Nat
  | .bool | .dimming | .unsigned8 | .signed8 => 1
  | .unsigned16 | .signed16 | .float16 => 2
  | .time | .date | .rgb => 3
  | .unsigned32 | .signed32 | .float32 => 4

/-- The triple `t` is a date whose day, month and year offset fit 5, 4 and 7 bits (47_dpt_general.md R270). -/
def isDate (t : Nat) : Prop := t / 65536 ≤ 31 ∧ t / 256 % 256 ≤ 15 ∧ t % 256 ≤ 127

/-- The triple with hour, minute and second masked to 5, 6 and 6 bits (47_dpt_general.md R268, R269). -/
def maskedTime (t : Nat) : Nat := t / 65536 % 32 * 65536 + t / 256 % 64 * 256 + t % 64

/-- The register value `v` is encoded as the number `o` (47_dpt_general.md R254, R256, … R278). -/
def encodesAs (mode : Rounding) (v : Word) (o : Nat) : Dpt → Prop
  | .bool => v.toNat ≤ 1 ∧ o = v.toNat
  | .dimming => v.toNat ≤ 15 ∧ o = v.toNat
  | .unsigned8 => v.toNat ≤ 255 ∧ o = v.toNat
  | .signed8 => -128 ≤ v.toInt ∧ v.toInt ≤ 127 ∧ o = v.toNat % 256
  | .unsigned16 => v.toNat ≤ 65535 ∧ o = v.toNat
  | .signed16 => -32768 ≤ v.toInt ∧ v.toInt ≤ 32767 ∧ o = v.toNat % 65536
  | .float16 => d9Encodes mode v.toInt o
  | .time => v.toNat < 2 ^ 24 ∧ o = maskedTime v.toNat
  | .date => v.toNat < 2 ^ 24 ∧ isDate v.toNat ∧ o = v.toNat
  | .unsigned32 => o = v.toNat
  | .signed32 => o = v.toNat
  | .float32 => o = v.toNat
  | .rgb => v.toNat < 2 ^ 24 ∧ o = v.toNat

/-- The number `o` of a type's width is decoded to the register value `v` (47_dpt_general.md R255, R257, … R279). -/
def decodesAs (o : Nat) (v : Word) : Dpt → Prop
  | .bool => o ≤ 1 ∧ v.toNat = o
  | .dimming => o ≤ 15 ∧ v.toNat = o
  | .unsigned8 => v.toNat = o
  | .signed8 => v.toInt = if o < 128 then (o : Int) else o - 256
  | .unsigned16 => v.toNat = o
  | .signed16 => v.toInt = if o < 32768 then (o : Int) else o - 65536
  | .float16 => v.toInt = d9Value o
  | .time => v.toNat = maskedTime o
  | .date => isDate o ∧ v.toNat = o
  | .unsigned32 => v.toNat = o
  | .signed32 => v.toNat = o
  | .float32 => v.toNat = o
  | .rgb => v.toNat = o

/-- The state after DPT.ENC of a type has stored at `m` (47_dpt_general.md R251). -/
def encodedIn (s : State) (rd : Reg) (d : Dpt) (m : Memory) : State :=
  { s with
    x := s.x.set rd (BitVec.ofNat 32 (widthOf d)), xWritten := s.xWritten.set rd true, lasterr := 0, fb := m }

/-! ### Addresses -/

/-- AD.GET's eight parts: the command, and the part of `v` as `v / div % range` (44_address.md R171, R175). -/
def addressPart : List ((Reg → Reg → Instr) × Nat × Nat) :=
  [(.adGetIndArea, 4096, 16), (.adGetIndLine, 256, 16), (.adGetIndDev, 1, 256), (.adGetG2Main, 2048, 32),
   (.adGetG2Sub, 1, 2048), (.adGetG3Main, 2048, 32), (.adGetG3Mid, 256, 8), (.adGetG3Sub, 1, 256)]

end Sys2Proof.Claims

open Sys2Proof.Claims

/-! ### The encoding -/

/-- DECODE AND ENCODE AGREE, one direction: every well-formed command is read back from its word with every operand
(30_encoding.md R80, R83, R89). -/
def Obligations.DecodeOfEncodeIsIdentity : Prop := ∀ i : Instr, i.wf = true → decode (encode i) = .ok i

/-- DECODE AND ENCODE AGREE, the other direction: a word that decodes is well-formed and is the word of its command, so no bit
of a legal word is dropped (30_encoding.md R86, R89; log entry 8). -/
def Obligations.EncodeOfDecodeIsIdentity : Prop :=
  ∀ (w : Word) (i : Instr), decode w = .ok i → i.wf = true ∧ encode i = w

/-- Words of the spec's examples and programs decode to the commands written beside them. -/
def Obligations.WordsOfTheSpecDecode : Prop :=
  decode 0x00000000 = .ok .nop ∧
  decode 0x01100012 = .ok (.li 1 0x12) ∧
  decode 0x02200003 = .ok (.csrrFlen 2) ∧
  decode 0x03040001 = .ok (.csrwFaults 4) ∧
  decode 0x09610004 = .ok (.ld16 6 1 4) ∧
  decode 0x0D016006 = .ok (.st16 6 1 6) ∧
  decode 0x11312063 = .ok (.bfSet 3 1 2 6 3) ∧
  decode 0x26312000 = .ok (.cfSpr 3 1 2) ∧
  decode 0x2D312000 = .ok (.ecfShc 3 1 2) ∧
  decode 0x32412300 = .ok (.adPk3 4 1 2 3) ∧
  decode 0x34540001 = .ok (.adGetIndLine 5 4) ∧
  decode 0x41012300 = .ok (.apWr 1 2 3) ∧
  decode 0x42512300 = .ok (.apRd 5 1 2 3) ∧
  decode 0x50210000 = .ok (.d9Dec 2 1) ∧
  decode 0x604120E8 = .ok (.dptEnc232 4 1 2) ∧
  decode 0x61523002 = .ok (.dptDecOther 5 2 3 2)

/-- Every word is either illegal by the list of R87 and raises IllegalCommand, or executes as the command it decodes to;
only the word 0 is a no-operation (30_encoding.md R86, R87, R89). That the step takes the action from a list is the
model's choice (log entry 6). -/
def Obligations.IllegalWordsRaiseIllegalCommand : Prop :=
  ∀ (w : Word) (s : State) (rest : List HostAction), s.host = .issue w :: rest →
    (illegalWord w → step s = .next (raised { s with host := rest } 6 w)) ∧
    (¬ illegalWord w → ∃ i, decode w = .ok i ∧ step s = exec i { s with host := rest }) ∧
    (decode w = .ok .nop → w = 0)

/-- A STEP RUNS THE DECODED INSTRUCTION: where the host issues a word next and it decodes, the step is `exec` of its command in the
state with that action taken from the host's list; a word placed by `withFetchWord` is issued next (10_state.md
R34, R46; log entries 6, 7, 15). -/
def Obligations.StepRunsTheIssuedCommand : Prop :=
  (∀ (s : State) (w : Word) (rest : List HostAction) (i : Instr), s.host = .issue w :: rest → decode w = .ok i →
    step s = exec i { s with host := rest }) ∧
  (∀ (s : State) (w : Word) (i : Instr), decode w = .ok i → step (s.withFetchWord 32 w.toNat) = exec i s)

/-! ### The host port, reset, the invariant -/

/-- What the host reads and writes between commands; a write the CSR rules forbid changes nothing (10_state.md R36 to R42,
R46; 93_implementation_defined.md U3, U11; log entries 6, 9, 10). -/
def Obligations.HostReadsAndWrites : Prop :=
  ∀ (s : State) (rest : List HostAction), (let s' := { s with host := rest }
    (∀ i v, s.host = .writeReg i v :: rest →
      step s = .next { s' with x := s.x.set i v, xWritten := s.xWritten.set i true }) ∧
    (∀ i, s.host = .readReg i :: rest → s.xWritten.get i = true → step s = .next { s' with hostData := s.x.get i }) ∧
    (∀ i, s.host = .readReg i :: rest → s.xWritten.get i = false →
      ∃ v, step s = .next { s' with hostData := v, freeCount := s.freeCount + 1 }) ∧
    (∀ a o, s.host = .writeFB a o :: rest → a < s.config.fbBytes →
      ∃ m, step s = .next { s' with fb := m } ∧ storedAt s.fb m a [o]) ∧
    (∀ a o, s.host = .readFB a :: rest → a < s.config.fbBytes → s.fb.readByte a = some o →
      step s = .next { s' with hostData := o.setWidth 32 }) ∧
    (s.host = .readCsr .lasterr :: rest → step s = .next { s' with hostData := s.lasterr }) ∧
    (s.host = .readCsr .faults :: rest → step s = .next { s' with hostData := s.faults }) ∧
    (s.host = .readCsr .errcmd :: rest → step s = .next { s' with hostData := s.errcmd }) ∧
    (s.host = .readCsr .flen :: rest → step s = .next { s' with hostData := s.flen }) ∧
    (s.host = .readCsr .rkind :: rest → step s = .next { s' with hostData := s.rkind }) ∧
    (s.host = .readCsr .rlen :: rest → step s = .next { s' with hostData := s.rlen }) ∧
    (∀ v, s.host = .writeCsr .faults v :: rest →
      ∃ F : Word, step s = .next { s' with faults := F } ∧
        ∀ k, k < 32 → F.getLsbD k = (s.faults.getLsbD k && !(decide (1 ≤ k ∧ k ≤ 6) && v.getLsbD k))) ∧
    (∀ v, s.host = .writeCsr .flen v :: rest → v.toNat ≤ s.config.fbBytes → step s = .next { s' with flen := v }) ∧
    (∀ v, s.host = .writeCsr .flen v :: rest → s.config.fbBytes < v.toNat → step s = .next s') ∧
    (∀ n v, n ∈ [Csr.lasterr, .errcmd, .rkind, .rlen] → s.host = .writeCsr n v :: rest → step s = .next s'))

/-- HostReset, from every state, and power-up: the six CSRs are 0, no general register counts as written and no octet has a value
(10_state.md R47). That the registers then hold 0 is the model's choice (log entry 1) and is not stated; that the parameters and
what is the host's stay is the model's (log entry 12). -/
def Obligations.HostResetClearsTheUnit : Prop :=
  (∀ (s : State) (rest : List HostAction), s.host = .reset :: rest →
    ∃ t, step s = .next t ∧ sameCsrs t State.reset ∧ (∀ a, t.fb.readByte a = none) ∧
      (∀ r, t.xWritten.get r = false) ∧ t.config = s.config ∧ t.host = rest) ∧
  State.reset.lasterr = 0 ∧ State.reset.faults = 0 ∧ State.reset.errcmd = 0 ∧ State.reset.flen = 0 ∧
  State.reset.rkind = 0 ∧ State.reset.rlen = 0 ∧ (∀ a, State.reset.fb.readByte a = none) ∧
  (∀ r, State.reset.xWritten.get r = false)

/-- The invariant of the unit holds after reset (`UnitInv`, Safety.lean). That FB_BYTES is 256 there is the model's choice
(log entry 4). -/
def Obligations.ResetMeetsTheUnitInvariant : Prop := UnitInv State.reset

/-- AN INVARIANT THAT EVERY STEP KEEPS: the reserved bits of the CSRs read as zero and their values are in range, the frame buffer is in
canonical form and holds no octet outside 0 .. FB_BYTES-1 (10_state.md R37, R38, R40, R41, R42, R44). -/
def Obligations.StepKeepsTheUnitInvariant : Prop :=
  ∀ s t : State, UnitInv s → step s = .next t → UnitInv t

/-- No step changes FB_BYTES or D9_ROUND, and every step takes exactly the host's next action (00_scope.md R7; 10_state.md R49;
log entries 4, 5, 6). -/
def Obligations.StepKeepsTheParameters : Prop :=
  ∀ s t : State, step s = .next t → t.config = s.config ∧ t.host = s.host.tail

/-! ### Errors -/

/-- R326: a command after which LASTERR is not 0 has written nothing but LASTERR, the sticky bit of its code, and ERRCMD; and the next
command executes as usual. That the step takes the action from a list is the model's choice (log entry 6). -/
def Obligations.FailureWritesOnlyTheErrorRecord : Prop :=
  ∀ (s t : State) (w : Word) (rest : List HostAction), s.host = .issue w :: rest → step s = .next t → t.lasterr ≠ 0 →
    (∃ k, 1 ≤ k ∧ k ≤ 6 ∧ t = raised { s with host := rest } k w) ∧
    ∀ (v : Word) (more : List HostAction) (i : Instr), rest = .issue v :: more → decode v = .ok i →
      step t = exec i { t with host := more }

/-- R327: a command that does not raise leaves LASTERR 0 and keeps ERRCMD and, but for CSRW FAULTS's own write, FAULTS;
CSRR rd, LASTERR delivers the LASTERR of the command before. The host's list is the model's choice (log entry 6). -/
def Obligations.SuccessClearsLasterrAndKeepsHistory : Prop :=
  ∀ (s t : State) (w : Word) (rest : List HostAction) (i : Instr), s.host = .issue w :: rest → decode w = .ok i →
    step s = .next t → (¬ ∃ k, 1 ≤ k ∧ k ≤ 6 ∧ t = raised { s with host := rest } k w) →
    t.lasterr = 0 ∧ t.errcmd = s.errcmd ∧
    ((∀ ra, i ≠ .csrwFaults ra) → t.faults = s.faults) ∧
    (∀ ra, i = .csrwFaults ra → t.faults = s.faults &&& ~~~(s.x.get ra &&& 0x7E#32)) ∧
    (∀ rd, i = .csrrLasterr rd → t.x.get rd = s.lasterr)

/-- R321's table: a well-formed command raises no error outside its row, and NOP, LI, CSRR and CSRW FAULTS raise none. ERRCMD is the
command's encoding (log entry 8). -/
def Obligations.EachCommandRaisesOnlyItsErrors : Prop :=
  ∀ (i : Instr) (s t : State), i.wf = true → exec i s = .next t →
    t.lasterr = 0 ∨ ∃ k ∈ errorsOf i, t = raised s k (encode i)

/-- Where every octet inside the window has been written, every command of every kind answers a next state: no command ends in a fault
or a refusal there (00_scope.md R15; 60_exceptions.md R326; 30_encoding.md R89). For a command that reads a general
register nothing has written since reset this is the model's choice (log entry 1, DESIGN CHOICE): 10_state.md R33 and
93_implementation_defined.md U1 ask a model to refuse it. -/
def Obligations.EveryCommandAnswersOnAWrittenWindow : Prop :=
  ∀ (i : Instr) (s : State), (∀ a, a < s.flen.toNat → s.fb.readByte a ≠ none) → ∃ t, exec i s = .next t

/-- A command is refused only where it reads, inside the window, an octet that nothing has written since reset, and the refusal names
the command and that octet (93_implementation_defined.md U2; 20_memory.md R66; log entries 3, 18). That an unwritten
general register is no second reason to refuse is the model's choice (log entry 1, DESIGN CHOICE): 10_state.md R33 and
93_implementation_defined.md U1 ask a model to refuse there too. -/
def Obligations.RefusalNamesAnUnwrittenOctet : Prop :=
  ∀ (i : Instr) (s : State) (q : Refusal), exec i s = .refused q →
    ∃ a, q = .unspecifiedOctet i a ∧ a < s.flen.toNat ∧ s.fb.readByte a = none

/-- R15: the result of a command is a function of the registers it names, the CSRs, the parameters and the octets of the window, and of
nothing else. -/
def Obligations.ResultDependsOnlyOnNamedInputs : Prop :=
  ∀ (i : Instr) (s s' : State), sameInputs i s s' →
    (∀ t, exec i s = .next t → ∃ t', exec i s' = .next t' ∧ sameCsrs t t' ∧
      (∀ a, a < s.flen.toNat → t.fb.readByte a = t'.fb.readByte a) ∧
      (t.lasterr = 0 → ∀ rd, dest i = some rd → t.x.get rd = t'.x.get rd)) ∧
    (∀ q, exec i s = .refused q → exec i s' = .refused q)

/-! ### Frames -/

/-- No command changes a general register other than its destination, and the destination is the register its word names in `rd`
(30_encoding.md R80, R81; 10_state.md R32). -/
def Obligations.OnlyTheDestinationRegisterChanges : Prop :=
  ∀ (i : Instr),
    (∀ (s t : State) (r : Reg), exec i s = .next t → dest i ≠ some r →
      t.x.get r = s.x.get r ∧ t.xWritten.get r = s.xWritten.get r) ∧
    (∀ r, dest i = some r → (encode i).toNat / 2 ^ 20 % 16 = r.val)

/-- FLEN changes only by CSRW FLEN, RKIND and RLEN only by AP.RD; no command changes the parameters, the host's actions or what the host has
read (10_state.md R36, R40, R41, R42, R48; log entries 4, 6, 9, 10). -/
def Obligations.CsrsChangeOnlyByTheirCommands : Prop :=
  ∀ (i : Instr) (s t : State), exec i s = .next t →
    ((∀ ra, i ≠ .csrwFlen ra) → t.flen = s.flen) ∧
    ((∀ rd ra rb rc, i ≠ .apRd rd ra rb rc) → t.rkind = s.rkind ∧ t.rlen = s.rlen) ∧
    t.config = s.config ∧ t.host = s.host ∧ t.hostData = s.hostData ∧ t.freeCount = s.freeCount

/-- A command that is no store, AP.WR or DPT.ENC leaves every octet as it was (20_memory.md R65, R66). -/
def Obligations.OtherCommandsKeepTheFrameBuffer : Prop :=
  ∀ (i : Instr) (s t : State), storesOctets i = false → exec i s = .next t →
    ∀ a, t.fb.readByte a = s.fb.readByte a

/-- STO, ST16 and ST32 leave every octet outside the 1, 2 or 4 octets at the effective address as it was (40_system_and_buffer.md R104,
R108 to R110). -/
def Obligations.StoresKeepOtherOctets : Prop :=
  ∀ (rb ra : Reg) (imm : Byte) (s t : State),
    ∀ p ∈ [(Instr.sto rb ra imm, 1), (.st16 rb ra imm, 2), (.st32 rb ra imm, 4)], exec p.1 s = .next t →
      ∀ a, a < effAddr s ra imm ∨ effAddr s ra imm + p.2 ≤ a → t.fb.readByte a = s.fb.readByte a

/-- AP.WR leaves every octet outside its destination as it was: none for an empty payload, 2 octets for a float, else as many as the
payload, from the address `apWrDest` that its meaning uses (45_apdu.md R203, R204). -/
def Obligations.ApWrKeepsOtherOctets : Prop :=
  ∀ (ra rb rc : Reg) (s t : State), exec (.apWr ra rb rc) s = .next t →
    (∀ p, s.fb.readOctets (s.reg ra) (s.reg rb) = .ok p →
      ∀ a, a < apWrDest (s.reg rb) (p.headD 0).toNat (s.reg rc) ∨
          apWrDest (s.reg rb) (p.headD 0).toNat (s.reg rc) + (if s.reg rb = 4 then 2 else s.reg rb) ≤ a →
        t.fb.readByte a = s.fb.readByte a) ∧
    ((∀ p, s.fb.readOctets (s.reg ra) (s.reg rb) ≠ .ok p) → ∀ a, t.fb.readByte a = s.fb.readByte a)

/-- DPT.ENC leaves every octet outside the type's width at `x[rb]` as it was (47_dpt_general.md R250, R251). -/
def Obligations.DptEncKeepsOtherOctets : Prop :=
  ∀ (d : Dpt) (rd ra rb : Reg) (s t : State), exec (encodeOf d rd ra rb) s = .next t →
    ∀ a, a < s.reg rb ∨ s.reg rb + widthOf d ≤ a → t.fb.readByte a = s.fb.readByte a

/-! ### System and buffer commands -/

/-- NOP only clears LASTERR; LI writes its constant zero-extended (40_system_and_buffer.md R100, R101). -/
def Obligations.NopAndLoadImmediateResults : Prop :=
  ∀ (s : State) (rd : Reg) (imm : Byte),
    exec .nop s = .next { s with lasterr := 0 } ∧ exec (.li rd imm) s = .next (written s rd (imm.setWidth 32))

/-- CSRR writes the value the CSR had before the command, for each of the six CSRs (40_system_and_buffer.md R102). -/
def Obligations.CsrReadResults : Prop :=
  ∀ (s : State) (rd : Reg),
    exec (.csrrLasterr rd) s = .next (written s rd s.lasterr) ∧
    exec (.csrrFaults rd) s = .next (written s rd s.faults) ∧
    exec (.csrrErrcmd rd) s = .next (written s rd s.errcmd) ∧
    exec (.csrrFlen rd) s = .next (written s rd s.flen) ∧
    exec (.csrrRkind rd) s = .next (written s rd s.rkind) ∧
    exec (.csrrRlen rd) s = .next (written s rd s.rlen)

/-- CSRW FAULTS clears exactly the bits 1 to 6 that are 1 in the register, and does nothing else (40_system_and_buffer.md R103;
10_state.md R38). -/
def Obligations.CsrWriteFaultsClearsNamedBits : Prop :=
  ∀ (s : State) (ra : Reg), ∃ F : Word,
    exec (.csrwFaults ra) s = .next { s with faults := F, lasterr := 0 } ∧
    ∀ k, k < 32 → F.getLsbD k = (s.faults.getLsbD k && !(decide (1 ≤ k ∧ k ≤ 6) && (s.x.get ra).getLsbD k))

/-- CSRW FLEN sets the window for every value up to FB_BYTES and raises RangeError above it (40_system_and_buffer.md R103;
10_state.md R40). The word in ERRCMD is
the command's encoding (log entry 8). -/
def Obligations.CsrWriteFlenSetsTheWindow : Prop :=
  ∀ (s : State) (ra : Reg),
    ((s.x.get ra).toNat ≤ s.config.fbBytes →
      exec (.csrwFlen ra) s = .next { s with flen := s.x.get ra, lasterr := 0 }) ∧
    (s.config.fbBytes < (s.x.get ra).toNat →
      exec (.csrwFlen ra) s = .next (raised s 2 (encode (.csrwFlen ra))))

/-- LDO, LD16 and LD32 load 1, 2 and 4 octets from the unbounded sum `x[ra] + imm`, first octet most significant, zero-extended, at any
alignment (40_system_and_buffer.md R104 to R107; 20_memory.md R60, R63). -/
def Obligations.LoadsAreBigEndian : Prop :=
  ∀ (s : State) (rd ra : Reg) (imm o0 o1 o2 o3 : Byte), (let ea := (s.x.get ra).toNat + imm.toNat
    (holds s.fb ea [o0] → ea + 1 ≤ s.flen.toNat → exec (.ldo rd ra imm) s = .next (written s rd (o0.setWidth 32))) ∧
    (holds s.fb ea [o0, o1] → ea + 2 ≤ s.flen.toNat →
      exec (.ld16 rd ra imm) s = .next (written s rd ((o0 ++ o1).setWidth 32))) ∧
    (holds s.fb ea [o0, o1, o2, o3] → ea + 4 ≤ s.flen.toNat →
      exec (.ld32 rd ra imm) s = .next (written s rd (o0 ++ o1 ++ o2 ++ o3))))

/-- A load, or a store of a value that fits, whose octets are not all inside the window raises FrameTooShort; the address does not wrap
(20_memory.md R64; 40_system_and_buffer.md R104 to R110). The word in ERRCMD is
the command's encoding (log entry 8). -/
def Obligations.AccessOutsideTheWindowRaises : Prop :=
  ∀ (s : State) (r ra : Reg) (imm : Byte), (let ea := (s.x.get ra).toNat + imm.toNat
    (∀ p ∈ [(Instr.ldo r ra imm, 1), (.ld16 r ra imm, 2), (.ld32 r ra imm, 4), (.st32 r ra imm, 4)],
      s.flen.toNat < ea + p.2 → exec p.1 s = .next (raised s 5 (encode p.1))) ∧
    ((s.x.get r).toNat < 256 → s.flen.toNat < ea + 1 →
      exec (.sto r ra imm) s = .next (raised s 5 (encode (.sto r ra imm)))) ∧
    ((s.x.get r).toNat < 65536 → s.flen.toNat < ea + 2 →
      exec (.st16 r ra imm) s = .next (raised s 5 (encode (.st16 r ra imm)))))

/-- STO, ST16 and ST32 store the low 1, 2 and 4 octets of a value that fits, most significant first, inside the window, and nothing else
(40_system_and_buffer.md R104, R108 to R110; 20_memory.md R60, R63). -/
def Obligations.StoresAreBigEndian : Prop :=
  ∀ (s : State) (rb ra : Reg) (imm : Byte), (let ea := (s.x.get ra).toNat + imm.toNat
    let v := s.x.get rb
    (v.toNat < 256 → ea + 1 ≤ s.flen.toNat → completesStoring (.sto rb ra imm) s ea [v.extractLsb' 0 8]) ∧
    (v.toNat < 65536 → ea + 2 ≤ s.flen.toNat →
      completesStoring (.st16 rb ra imm) s ea [v.extractLsb' 8 8, v.extractLsb' 0 8]) ∧
    (ea + 4 ≤ s.flen.toNat →
      completesStoring (.st32 rb ra imm) s ea
        [v.extractLsb' 24 8, v.extractLsb' 16 8, v.extractLsb' 8 8, v.extractLsb' 0 8]))

/-- STO and ST16 raise RangeError for a value wider than the store, also where the address is outside the window
(40_system_and_buffer.md R108, R109; 60_exceptions.md R324). The word in ERRCMD is
the command's encoding (log entry 8). -/
def Obligations.TooWideStoreValuesRaise : Prop :=
  ∀ (s : State) (rb ra : Reg) (imm : Byte),
    (256 ≤ (s.x.get rb).toNat → exec (.sto rb ra imm) s = .next (raised s 2 (encode (.sto rb ra imm)))) ∧
    (65536 ≤ (s.x.get rb).toNat → exec (.st16 rb ra imm) s = .next (raised s 2 (encode (.st16 rb ra imm))))

/-! ### Bit fields -/

/-- BF.GET moves the bits `hi` to `lo` of an octet down, and raises RangeError if the register holds no octet (41_bitfield.md R121). The word in ERRCMD is
the command's encoding (log entry 8). -/
def Obligations.BitFieldGetResult : Prop :=
  ∀ (s : State) (rd ra : Reg) (hi lo : Fin 8), lo ≤ hi →
    ((s.x.get ra).toNat < 256 →
      ∃ v, exec (.bfGet rd ra hi lo) s = .next (written s rd v) ∧ isField v (s.x.get ra) hi.val lo.val) ∧
    (256 ≤ (s.x.get ra).toNat →
      exec (.bfGet rd ra hi lo) s = .next (raised s 2 (encode (.bfGet rd ra hi lo))))

/-- BF.SET replaces the bits `hi` to `lo` of an octet and keeps the others, and raises RangeError if the register holds no octet or the
value is wider than the range (41_bitfield.md R122). The word in ERRCMD is
the command's encoding (log entry 8). -/
def Obligations.BitFieldSetResult : Prop :=
  ∀ (s : State) (rd ra rb : Reg) (hi lo : Fin 8), lo ≤ hi →
    ((s.x.get ra).toNat < 256 → (s.x.get rb).toNat < 2 ^ (hi.val - lo.val + 1) →
      ∃ v, exec (.bfSet rd ra rb hi lo) s = .next (written s rd v) ∧
        isFieldSet v (s.x.get ra) (s.x.get rb) hi.val lo.val) ∧
    (256 ≤ (s.x.get ra).toNat ∨ 2 ^ (hi.val - lo.val + 1) ≤ (s.x.get rb).toNat →
      exec (.bfSet rd ra rb hi lo) s = .next (raised s 2 (encode (.bfSet rd ra rb hi lo))))

/-- R123: the four laws of `bf_get` and `bf_set`, which the spec derives from R120. -/
def Obligations.BitFieldLaws : Prop :=
  ∀ (o hi lo v : Nat), o < 256 → lo ≤ hi → hi ≤ 7 → v < 2 ^ (hi - lo + 1) →
    bfGetNat (bfSetNat o hi lo v) hi lo = v ∧
    (∀ hi2 lo2, lo2 ≤ hi2 → hi2 ≤ 7 → hi2 < lo ∨ hi < lo2 →
      bfGetNat (bfSetNat o hi lo v) hi2 lo2 = bfGetNat o hi2 lo2) ∧
    bfSetNat o hi lo (bfGetNat o hi lo) = o ∧
    (∀ v2, v2 < 2 ^ (hi - lo + 1) → bfSetNat (bfSetNat o hi lo v) hi lo v2 = bfSetNat o hi lo v2)

/-! ### Control fields -/

/-- CF.GFT, CF.GRP, CF.GPR and CF.GTT read bit 7, bit 6, bits 5:4 and bits 3:0 of a control octet, and raise RangeError if the register
holds no octet (42_control_field.md R130, R132 to R135). The word in ERRCMD is
the command's encoding (log entry 8). -/
def Obligations.ControlFieldGetterResults : Prop :=
  ∀ (s : State) (rd ra : Reg), ∀ g ∈ cfGetters,
    ((s.x.get ra).toNat < 256 →
      ∃ v, exec (g.1 rd ra) s = .next (written s rd v) ∧ isField v (s.x.get ra) g.2.1 g.2.2) ∧
    (256 ≤ (s.x.get ra).toNat → exec (g.1 rd ra) s = .next (raised s 2 (encode (g.1 rd ra))))

/-- CF.SFT, CF.SRP, CF.SPR and CF.STT replace their bits and keep the others; the carrier is checked first (RangeError), then the
value: UnsupportedType for the enumerations, RangeError for the others (42_control_field.md R136 to R139). The word in ERRCMD is
the command's encoding (log entry 8). -/
def Obligations.ControlFieldSetterResults : Prop :=
  ∀ (s : State) (rd ra rb : Reg), ∀ g ∈ cfSetters,
    ((s.x.get ra).toNat < 256 → (s.x.get rb).toNat ≤ g.2.2.2.1 →
      ∃ v, exec (g.1 rd ra rb) s = .next (written s rd v) ∧
        isFieldSet v (s.x.get ra) (s.x.get rb) g.2.1 g.2.2.1) ∧
    (256 ≤ (s.x.get ra).toNat → exec (g.1 rd ra rb) s = .next (raised s 2 (encode (g.1 rd ra rb)))) ∧
    ((s.x.get ra).toNat < 256 → g.2.2.2.1 < (s.x.get rb).toNat →
      exec (g.1 rd ra rb) s = .next (raised s g.2.2.2.2 (encode (g.1 rd ra rb))))

/-- R140: after a setter of the control field its own getter gives the value set, and the other three getters give what they give on the
octet before; a control octet is determined by its four fields. -/
def Obligations.ControlFieldIsolation : Prop :=
  (∀ (s t : State) (rd ra rb re : Reg), ∀ g ∈ cfSetters, (s.x.get ra).toNat < 256 → (s.x.get rb).toNat ≤ g.2.2.2.1 →
    exec (g.1 rd ra rb) s = .next t →
    ∀ f ∈ cfGetters,
      (f.2.1 = g.2.1 → exec (f.1 re rd) t = .next (written t re (s.x.get rb))) ∧
      (f.2.1 ≠ g.2.1 →
        ∃ v, exec (f.1 re ra) s = .next (written s re v) ∧ exec (f.1 re rd) t = .next (written t re v))) ∧
  (∀ o, o < 256 → o = bfGetNat o 7 7 <<< 7 ||| bfGetNat o 6 6 <<< 6 ||| bfGetNat o 5 4 <<< 4 ||| bfGetNat o 3 0)

/-- ECF.GAT, ECF.GHC and ECF.GEF read bit 7, bits 6:3 and bit 0, and raise RangeError if the register holds no octet
(43_extended_control_field.md R150, R152 to R154). The word in ERRCMD is
the command's encoding (log entry 8). -/
def Obligations.ExtControlFieldGetterResults : Prop :=
  ∀ (s : State) (rd ra : Reg), ∀ g ∈ ecfGetters,
    ((s.x.get ra).toNat < 256 →
      ∃ v, exec (g.1 rd ra) s = .next (written s rd v) ∧ isField v (s.x.get ra) g.2.1 g.2.2) ∧
    (256 ≤ (s.x.get ra).toNat → exec (g.1 rd ra) s = .next (raised s 2 (encode (g.1 rd ra))))

/-- ECF.SAT, ECF.SHC and ECF.SEF replace their bits and keep the others, bits 2:1 included; the carrier is checked first (RangeError),
then the value: UnsupportedType for addressType, RangeError for the others (43_extended_control_field.md R155 to R157). The word in ERRCMD is
the command's encoding (log entry 8). -/
def Obligations.ExtControlFieldSetterResults : Prop :=
  ∀ (s : State) (rd ra rb : Reg), ∀ g ∈ ecfSetters,
    ((s.x.get ra).toNat < 256 → (s.x.get rb).toNat ≤ g.2.2.2.1 →
      ∃ v, exec (g.1 rd ra rb) s = .next (written s rd v) ∧
        isFieldSet v (s.x.get ra) (s.x.get rb) g.2.1 g.2.2.1) ∧
    (256 ≤ (s.x.get ra).toNat → exec (g.1 rd ra rb) s = .next (raised s 2 (encode (g.1 rd ra rb)))) ∧
    ((s.x.get ra).toNat < 256 → g.2.2.2.1 < (s.x.get rb).toNat →
      exec (g.1 rd ra rb) s = .next (raised s g.2.2.2.2 (encode (g.1 rd ra rb))))

/-- R158: the hop count read after ECF.SHC is the one set, for all of 0 to 15, and setting it again changes nothing; 16 and the pattern of -1
are rejected; the three named fields, and bits 2:1, do not disturb one another. -/
def Obligations.HopCountRoundTrip : Prop :=
  (∀ (s t : State) (rd ra rb re rf : Reg), (s.x.get ra).toNat < 256 → (s.x.get rb).toNat ≤ 15 →
    exec (.ecfShc rd ra rb) s = .next t →
    exec (.ecfGhc re rd) t = .next (written t re (s.x.get rb)) ∧
    ((t.x.get rf) = s.x.get rb → exec (.ecfShc re rd rf) t = .next (written t re (t.x.get rd)))) ∧
  (∀ (s : State) (rd ra rb : Reg), (s.x.get ra).toNat < 256 → s.x.get rb = 16 ∨ s.x.get rb = 0xFFFFFFFF →
    ∃ w, exec (.ecfShc rd ra rb) s = .next (raised s 2 w)) ∧
  (∀ (s t : State) (rd ra rb re : Reg), ∀ g ∈ ecfSetters, (s.x.get ra).toNat < 256 → (s.x.get rb).toNat ≤ g.2.2.2.1 →
    exec (g.1 rd ra rb) s = .next t →
    (∀ f ∈ ecfGetters, f.2.1 ≠ g.2.1 →
      ∃ v, exec (f.1 re ra) s = .next (written s re v) ∧ exec (f.1 re rd) t = .next (written t re v)) ∧
    (∃ v, exec (.bfGet re ra 2 1) s = .next (written s re v) ∧ exec (.bfGet re rd 2 1) t = .next (written t re v))) ∧
  (∀ (s t : State) (rd ra rb re : Reg), (s.x.get ra).toNat < 256 → (s.x.get rb).toNat ≤ 3 →
    exec (.bfSet rd ra rb 2 1) s = .next t →
    ∀ f ∈ ecfGetters,
      ∃ v, exec (f.1 re ra) s = .next (written s re v) ∧ exec (f.1 re rd) t = .next (written t re v))

/-! ### Addresses -/

/-- AD.PKI, AD.PK2 and AD.PK3 lay the parts side by side, first part most significant, and raise InvalidAddress exactly if a part
is out of its range (44_address.md R171 to R174). The word in ERRCMD is
the command's encoding (log entry 8). -/
def Obligations.AddressPackResults : Prop :=
  ∀ (s : State) (rd ra rb rc : Reg), (let a := (s.x.get ra).toNat
    let b := (s.x.get rb).toNat
    let c := (s.x.get rc).toNat
    (a ≤ 15 ∧ b ≤ 15 ∧ c ≤ 255 →
      exec (.adPki rd ra rb rc) s = .next (written s rd (BitVec.ofNat 32 (a * 4096 + b * 256 + c)))) ∧
    (15 < a ∨ 15 < b ∨ 255 < c → exec (.adPki rd ra rb rc) s = .next (raised s 1 (encode (.adPki rd ra rb rc)))) ∧
    (a ≤ 31 ∧ b ≤ 2047 →
      exec (.adPk2 rd ra rb) s = .next (written s rd (BitVec.ofNat 32 (a * 2048 + b)))) ∧
    (31 < a ∨ 2047 < b → exec (.adPk2 rd ra rb) s = .next (raised s 1 (encode (.adPk2 rd ra rb)))) ∧
    (a ≤ 31 ∧ b ≤ 7 ∧ c ≤ 255 →
      exec (.adPk3 rd ra rb rc) s = .next (written s rd (BitVec.ofNat 32 (a * 2048 + b * 256 + c)))) ∧
    (31 < a ∨ 7 < b ∨ 255 < c → exec (.adPk3 rd ra rb rc) s = .next (raised s 1 (encode (.adPk3 rd ra rb rc)))))

/-- Each of AD.GET's eight part codes gives its part of every 16-bit value, and raises RangeError for a wider one
(44_address.md R171, R175). The word in ERRCMD is
the command's encoding (log entry 8). -/
def Obligations.AddressPartResults : Prop :=
  ∀ (s : State) (rd ra : Reg), ∀ g ∈ addressPart,
    ((s.x.get ra).toNat < 65536 →
      exec (g.1 rd ra) s = .next (written s rd (BitVec.ofNat 32 ((s.x.get ra).toNat / g.2.1 % g.2.2)))) ∧
    (65536 ≤ (s.x.get ra).toNat → exec (g.1 rd ra) s = .next (raised s 2 (encode (g.1 rd ra))))

/-- R176, which the spec derives from R171 to R175: for each kind the parts of a packed address are the parts packed,
and packing the parts of a 16-bit value gives it back; packing is injective within a kind and not across kinds. -/
def Obligations.AddressPackAndGetAreInverse : Prop :=
  (∀ (s t : State) (rd ra rb rc re : Reg),
    ((s.x.get ra).toNat ≤ 15 → (s.x.get rb).toNat ≤ 15 → (s.x.get rc).toNat ≤ 255 →
      exec (.adPki rd ra rb rc) s = .next t →
      exec (.adGetIndArea re rd) t = .next (written t re (s.x.get ra)) ∧
      exec (.adGetIndLine re rd) t = .next (written t re (s.x.get rb)) ∧
      exec (.adGetIndDev re rd) t = .next (written t re (s.x.get rc))) ∧
    ((s.x.get ra).toNat ≤ 31 → (s.x.get rb).toNat ≤ 2047 → exec (.adPk2 rd ra rb) s = .next t →
      exec (.adGetG2Main re rd) t = .next (written t re (s.x.get ra)) ∧
      exec (.adGetG2Sub re rd) t = .next (written t re (s.x.get rb))) ∧
    ((s.x.get ra).toNat ≤ 31 → (s.x.get rb).toNat ≤ 7 → (s.x.get rc).toNat ≤ 255 →
      exec (.adPk3 rd ra rb rc) s = .next t →
      exec (.adGetG3Main re rd) t = .next (written t re (s.x.get ra)) ∧
      exec (.adGetG3Mid re rd) t = .next (written t re (s.x.get rb)) ∧
      exec (.adGetG3Sub re rd) t = .next (written t re (s.x.get rc)))) ∧
  (∀ (s s1 s2 s3 : State) (v p q r re : Reg), [v, p, q, r].Nodup → (s.x.get v).toNat < 65536 →
    (exec (.adGetIndArea p v) s = .next s1 → exec (.adGetIndLine q v) s1 = .next s2 →
      exec (.adGetIndDev r v) s2 = .next s3 →
      exec (.adPki re p q r) s3 = .next (written s3 re (s.x.get v))) ∧
    (exec (.adGetG2Main p v) s = .next s1 → exec (.adGetG2Sub q v) s1 = .next s2 →
      exec (.adPk2 re p q) s2 = .next (written s2 re (s.x.get v))) ∧
    (exec (.adGetG3Main p v) s = .next s1 → exec (.adGetG3Mid q v) s1 = .next s2 →
      exec (.adGetG3Sub r v) s2 = .next s3 →
      exec (.adPk3 re p q r) s3 = .next (written s3 re (s.x.get v)))) ∧
  (∀ a l d a' l' d' v, packIndividual a l d = .ok v → packIndividual a' l' d' = .ok v → a = a' ∧ l = l' ∧ d = d') ∧
  (∀ m u m' u' v, packGroup2 m u = .ok v → packGroup2 m' u' = .ok v → m = m' ∧ u = u') ∧
  (∀ m i u m' i' u' v, packGroup3 m i u = .ok v → packGroup3 m' i' u' = .ok v → m = m' ∧ i = i' ∧ u = u') ∧
  (packIndividual 0 10 3 = .ok 0x0A03 ∧ packGroup2 1 515 = .ok 0x0A03 ∧ packGroup3 1 2 3 = .ok 0x0A03)

/-! ### APDU framing -/

/-- AP.DLEN gives the length class of a payload inside the window, reading its first octet only, and raises FrameTooShort for a range outside
it, empty ranges included (45_apdu.md R201, R202). The word in ERRCMD is
the command's encoding (log entry 8). -/
def Obligations.ApduLengthClassResult : Prop :=
  ∀ (s : State) (rd ra rb : Reg), (let pb := (s.x.get ra).toNat
    let n := (s.x.get rb).toNat
    (∀ (p0 : Byte) (c : Nat), pb + n ≤ s.flen.toNat → (1 ≤ n → s.fb.readByte pb = some p0) →
      lengthClassIs n p0.toNat c → exec (.apDlen rd ra rb) s = .next (written s rd (BitVec.ofNat 32 c))) ∧
    (s.flen.toNat < pb + n → exec (.apDlen rd ra rb) s = .next (raised s 5 (encode (.apDlen rd ra rb)))))

/-- AP.WR of an empty payload writes nothing and does not examine `off`; one octet below 0x3F is ORed into `FB[off]`; one of 0x3F or more is
stored at `off + 1` (45_apdu.md R203, R204). -/
def Obligations.ApWrShortPayloads : Prop :=
  ∀ (s : State) (ra rb rc : Reg) (b o : Byte), (let pb := (s.x.get ra).toNat
    let off := (s.x.get rc).toNat
    (s.x.get rb = 0 → pb ≤ s.flen.toNat → exec (.apWr ra rb rc) s = .next { s with lasterr := 0 }) ∧
    (s.x.get rb = 1 → pb + 1 ≤ s.flen.toNat → s.fb.readByte pb = some b → b.toNat < 0x3F →
      s.fb.readByte off = some o → off + 1 ≤ s.flen.toNat → completesStoring (.apWr ra rb rc) s off [o ||| b]) ∧
    (s.x.get rb = 1 → pb + 1 ≤ s.flen.toNat → s.fb.readByte pb = some b → 0x3F ≤ b.toNat →
      off + 2 ≤ s.flen.toNat → completesStoring (.apWr ra rb rc) s (off + 1) [b]))

/-- AP.WR copies a payload of 2, 3 or at least 5 octets as it was before the command, overlapping or not, to `off` if its first octet is below
0x3F and else to `off + 1` (45_apdu.md R203, R204; 20_memory.md R68). -/
def Obligations.ApWrCopiesLongPayloads : Prop :=
  ∀ (s : State) (ra rb rc : Reg) (p : List Byte), (let pb := (s.x.get ra).toNat
    let off := (s.x.get rc).toNat
    p.length = (s.x.get rb).toNat → 2 ≤ p.length → p.length ≠ 4 → pb + p.length ≤ s.flen.toNat → holds s.fb pb p →
    ((p.headD 0).toNat < 0x3F → off + p.length ≤ s.flen.toNat → completesStoring (.apWr ra rb rc) s off p) ∧
    (0x3F ≤ (p.headD 0).toNat → off + 1 + p.length ≤ s.flen.toNat →
      completesStoring (.apWr ra rb rc) s (off + 1) p))

/-- AP.WR of a 4-octet payload reads it as a binary32 pattern and stores the DPT9 word of its centi value at `off + 1`, whatever its first
octet (45_apdu.md R203, R204; 46_dpt9.md R224 to R227). -/
def Obligations.ApWrConvertsFloats : Prop :=
  ∀ (s : State) (ra rb rc : Reg) (b0 b1 b2 b3 : Byte) (w : Nat), (let pb := (s.x.get ra).toNat
    let off := (s.x.get rc).toNat
    let pattern := (b0 ++ b1 ++ b2 ++ b3).toNat
    s.x.get rb = 4 → pb + 4 ≤ s.flen.toNat → holds s.fb pb [b0, b1, b2, b3] → ¬ f32Infinite pattern →
    d9Encodes s.config.d9Round (100 * f32Value pattern) w → off + 3 ≤ s.flen.toNat →
    completesStoring (.apWr ra rb rc) s (off + 1) (octets 2 w))

/-- AP.WR's errors in their order: the payload outside the window; for 4 octets a non-finite pattern, then a value DPT9 cannot hold; the octets
to be stored not all inside the window (45_apdu.md R204; 46_dpt9.md R224, R227; 60_exceptions.md R324). The value of a
pattern rests on the binary32 layout, PRESUMED (log entry 16), and the later checks on log entry 18. The word in ERRCMD is
the command's encoding (log entry 8). -/
def Obligations.ApWrErrorsInOrder : Prop :=
  ∀ (s : State) (ra rb rc : Reg) (p : List Byte), (let pb := (s.x.get ra).toNat
    let n := (s.x.get rb).toNat
    let off := (s.x.get rc).toNat
    let i := Instr.apWr ra rb rc
    (s.flen.toNat < pb + n → exec i s = .next (raised s 5 (encode i))) ∧
    (pb + n ≤ s.flen.toNat → p.length = n → holds s.fb pb p →
      (∀ b0 b1 b2 b3, p = [b0, b1, b2, b3] →
        (f32Infinite (b0 ++ b1 ++ b2 ++ b3).toNat → exec i s = .next (raised s 4 (encode i))) ∧
        (¬ f32Infinite (b0 ++ b1 ++ b2 ++ b3).toNat →
          (¬ d9InRange (100 * f32Value (b0 ++ b1 ++ b2 ++ b3).toNat) → exec i s = .next (raised s 2 (encode i))) ∧
          (d9InRange (100 * f32Value (b0 ++ b1 ++ b2 ++ b3).toNat) → s.flen.toNat < off + 3 →
            exec i s = .next (raised s 5 (encode i))))) ∧
      (n ≠ 0 → n ≠ 4 → (p.headD 0).toNat < 0x3F → s.flen.toNat < off + n → exec i s = .next (raised s 5 (encode i))) ∧
      (n ≠ 0 → n ≠ 4 → 0x3F ≤ (p.headD 0).toNat → s.flen.toNat < off + 1 + n →
        exec i s = .next (raised s 5 (encode i)))))

/-- AP.RD by length class: nothing, the masked low six bits of `apdu[1]`, the octet `apdu[2]`, the centi value of `apdu[2..3]`, or base and length
of the whole APDU, with RKIND and RLEN; and its errors (45_apdu.md R205, R206; 10_state.md R41, R42). The word in ERRCMD is
the command's encoding (log entry 8). -/
def Obligations.ApRdResultsByClass : Prop :=
  ∀ (s : State) (rd ra rb rc : Reg) (o o' : Byte), (let ab := (s.x.get ra).toNat
    let al := (s.x.get rb).toNat
    let cls := (s.x.get rc).toNat
    let i := Instr.apRd rd ra rb rc
    (ab + al ≤ s.flen.toNat → cls = 0 → exec i s = .next (delivered s rd 0 0 0)) ∧
    (ab + al ≤ s.flen.toNat → cls = 1 → 2 ≤ al → s.fb.readByte (ab + 1) = some o →
      exec i s = .next (delivered s rd ((o &&& 0x3F).setWidth 32) 1 1)) ∧
    (ab + al ≤ s.flen.toNat → cls = 2 → 3 ≤ al → s.fb.readByte (ab + 2) = some o →
      exec i s = .next (delivered s rd (o.setWidth 32) 2 1)) ∧
    (ab + al ≤ s.flen.toNat → cls = 3 → 4 ≤ al → holds s.fb (ab + 2) [o, o'] →
      exec i s = .next (delivered s rd (BitVec.ofInt 32 (d9Value (o ++ o').toNat)) 3 2)) ∧
    (ab + al ≤ s.flen.toNat → 4 ≤ cls → exec i s = .next (delivered s rd (s.x.get ra) 4 al)) ∧
    (s.flen.toNat < ab + al ∨ (1 ≤ cls ∧ cls ≤ 3 ∧ al < cls + 1) → exec i s = .next (raised s 5 (encode i))))

/-- One payload octet survives AP.DLEN, AP.WR and AP.RD in sequence: packed, if bits 5:0 of `apdu[1]` were clear, or unpacked
(45_apdu.md R207, R208). -/
def Obligations.SingleOctetApduRoundTrip : Prop :=
  ∀ (s t u : State) (pb n off ab al cls rd : Reg) (b o : Byte) (c : Nat),
    s.x.get n = 1 → s.fb.readByte (s.reg pb) = some b → lengthClassIs 1 b.toNat c →
    (b.toNat < 0x3F → s.fb.readByte (s.reg off) = some o ∧ o &&& 0x3F = 0) →
    exec (.apWr pb n off) s = .next t → t.lasterr = 0 →
    u.fb = t.fb → u.flen = t.flen → u.reg ab + 1 = s.reg off → u.reg cls = c →
    c + 1 ≤ u.reg al → u.reg ab + u.reg al ≤ u.flen.toNat →
    exec (.apRd rd ab al cls) u = .next (delivered u rd (b.setWidth 32) c 1)

/-! ### DPT9 -/

/-- R222, R223: `d9_decode` is `M * 2^E` and the document's formula with `~`, for all 65536 words, several of which give one value; D9.DEC writes it and
raises RangeError for a wider register value. -/
def Obligations.D9DecodeFollowsTheFormula : Prop :=
  (∀ w, w < 65536 → d9Decode w = d9Value w ∧
    d9Decode w = (if 32768 ≤ w then ((w % 2048 : Nat) : Int) - 2048 else (w % 2048 : Nat)) * 2 ^ (w / 2048 % 16)) ∧
  (∀ E, E < 16 → d9Decode (2048 * E) = 0) ∧ d9Decode 0x0002 = 2 ∧ d9Decode 0x0801 = 2 ∧
  (∀ (s : State) (rd ra : Reg),
    ((s.x.get ra).toNat < 65536 →
      exec (.d9Dec rd ra) s = .next (written s rd (BitVec.ofInt 32 (d9Value (s.x.get ra).toNat)))) ∧
    (65536 ≤ (s.x.get ra).toNat → ∃ w, exec (.d9Dec rd ra) s = .next (raised s 2 w)))

/-- D9.ENCC: for a centi value in range the word at the smallest exponent that fits, mantissa rounded in the mode of D9_ROUND; else RangeError
(46_dpt9.md R225, R226, R227, R229). The word in ERRCMD is
the command's encoding (log entry 8). -/
def Obligations.D9EncodesCentiValues : Prop :=
  ∀ (s : State) (rd ra : Reg), (let C := (s.x.get ra).toInt
    (-67108864 ≤ C ∧ C ≤ 67076096 →
      ∃ w, d9Encodes s.config.d9Round C w ∧ exec (.d9Encc rd ra) s = .next (written s rd (BitVec.ofNat 32 w))) ∧
    (C < -67108864 ∨ 67076096 < C → exec (.d9Encc rd ra) s = .next (raised s 2 (encode (.d9Encc rd ra)))))

/-- D9.ENCF: a non-finite pattern raises EncodingError; else the exact product of 100 and the pattern's value is encoded as by D9.ENCC, or raises
RangeError (46_dpt9.md R224 to R228). The word in ERRCMD is
the command's encoding (log entry 8). -/
def Obligations.D9EncodesBinary32 : Prop :=
  ∀ (s : State) (rd ra : Reg), (let b := (s.x.get ra).toNat
    let i := Instr.d9Encf rd ra
    (f32Infinite b → exec i s = .next (raised s 4 (encode i))) ∧
    (¬ f32Infinite b →
      (d9InRange (100 * f32Value b) →
        ∃ w, d9Encodes s.config.d9Round (100 * f32Value b) w ∧
          exec i s = .next (written s rd (BitVec.ofNat 32 w))) ∧
      (¬ d9InRange (100 * f32Value b) → exec i s = .next (raised s 2 (encode i)))))

/-- R230 (a) and (b), in every mode: D9.DEC and then D9.ENCC gives back every canonical word, and for any other word the canonical word of the same
value. -/
def Obligations.D9RoundTripIsCanonical : Prop :=
  ∀ (s : State) (rd ra re : Reg), (s.x.get ra).toNat < 65536 →
    ∃ (t : State) (w : Nat), exec (.d9Dec rd ra) s = .next t ∧
      exec (.d9Encc re rd) t = .next (written t re (BitVec.ofNat 32 w)) ∧
      w < 65536 ∧ d9Canonical w ∧ d9Value w = d9Value (s.x.get ra).toNat ∧
      (d9Canonical (s.x.get ra).toNat → w = (s.x.get ra).toNat)

/-- R230 (c) and (d) in the two nearest modes (rounding toward zero has neither): a rational in range is encoded within half a unit of its
exponent, and encoding is monotonic. The restriction to those modes is the model's reading (log entry 5). -/
def Obligations.D9EncodingIsCloseAndMonotonic : Prop :=
  ∀ (mode : Rounding), mode ≠ .towardZero →
    (∀ (num : Int) (den : Nat), 0 < den → -67108864 * (den : Int) ≤ num → num ≤ 67076096 * (den : Int) →
      ∃ E w, d9Search num den = some E ∧ d9Encode mode num den = .ok w ∧
        2 * |d9Value w * den - num| ≤ 2 ^ E * den) ∧
    (∀ (num num' : Int) (den den' : Nat) (w w' : Nat), 0 < den → 0 < den' → num * den' ≤ num' * den →
      d9Encode mode num den = .ok w → d9Encode mode num' den' = .ok w' → d9Value w ≤ d9Value w')

/-! ### Datapoint types -/

/-- DPT.ENC of each of the thirteen selectors stores the encoded value, most significant octet first, inside the window, and writes its width
(47_dpt_general.md R250, R251, R254 to R278). -/
def Obligations.DptEncodeResults : Prop :=
  ∀ (d : Dpt) (s : State) (rd ra rb : Reg) (o : Nat), encodesAs s.config.d9Round (s.x.get ra) o d →
    (s.x.get rb).toNat + widthOf d ≤ s.flen.toNat →
    ∃ m, exec (encodeOf d rd ra rb) s = .next (encodedIn s rd d m) ∧
      storedAt s.fb m (s.x.get rb).toNat (octets (widthOf d) o)

/-- DPT.DEC of each of the thirteen selectors writes the decoded value of the type's octets (47_dpt_general.md R250, R252, R255 to R279). -/
def Obligations.DptDecodeResults : Prop :=
  ∀ (d : Dpt) (s : State) (rd ra rb : Reg) (o : Nat) (v : Word), o < 256 ^ widthOf d → decodesAs o v d →
    holds s.fb (s.x.get ra).toNat (octets (widthOf d) o) → (s.x.get rb).toNat = widthOf d →
    (s.x.get ra).toNat + widthOf d ≤ s.flen.toNat →
    exec (decodeOf d rd ra rb) s = .next (written s rd v)

/-- The errors of DPT.ENC and DPT.DEC of a defined selector, in their order (47_dpt_general.md R251, R252; 60_exceptions.md R324). The word in ERRCMD is
the command's encoding (log entry 8). -/
def Obligations.DptErrorsInOrder : Prop :=
  ∀ (d : Dpt) (s : State) (rd ra rb : Reg), (let i := encodeOf d rd ra rb
    let j := decodeOf d rd ra rb
    let a := (s.x.get ra).toNat
    let b := (s.x.get rb).toNat
    ((∀ o, ¬ encodesAs s.config.d9Round (s.x.get ra) o d) → exec i s = .next (raised s 2 (encode i))) ∧
    (∀ o, encodesAs s.config.d9Round (s.x.get ra) o d → s.flen.toNat < b + widthOf d →
      exec i s = .next (raised s 5 (encode i))) ∧
    (s.flen.toNat < a + b ∨ b < widthOf d → exec j s = .next (raised s 5 (encode j))) ∧
    (a + b ≤ s.flen.toNat → widthOf d < b → exec j s = .next (raised s 2 (encode j))) ∧
    (∀ o, a + b ≤ s.flen.toNat → b = widthOf d → o < 256 ^ widthOf d → holds s.fb a (octets (widthOf d) o) →
      (∀ v, ¬ decodesAs o v d) → exec j s = .next (raised s 2 (encode j))))

/-- R253 for every selector but 9 (whose laws are those of R230): DPT.DEC of what DPT.ENC wrote gives the value back, and DPT.ENC of what DPT.DEC gave
writes the octets back; for selector 10 where the masked-off bits are zero. The second command runs in any state with the same window. -/
def Obligations.DptEncodeAndDecodeAreInverse : Prop :=
  ∀ (d : Dpt) (s t u : State) (rd ra rb re rp rq : Reg), d ≠ .float16 → u.flen = s.flen →
    (exec (encodeOf d rd ra rb) s = .next t → t.lasterr = 0 →
      (d = .time → s.x.get ra &&& 0x1F3F3F = s.x.get ra) →
      u.fb = t.fb → u.x.get rp = s.x.get rb → (u.x.get rq).toNat = widthOf d →
      exec (decodeOf d re rp rq) u = .next (written u re (s.x.get ra))) ∧
    (exec (decodeOf d rd ra rb) s = .next t → t.lasterr = 0 →
      (d = .time → ∀ o0 o1 o2, holds s.fb (s.reg ra) [o0, o1, o2] → o0.toNat < 32 ∧ o1.toNat < 64 ∧ o2.toNat < 64) →
      u.x.get rp = t.x.get rd → u.x.get rq = s.x.get ra →
      ∃ m, exec (encodeOf d re rp rq) u = .next (encodedIn u re d m) ∧
        ∀ k, k < widthOf d → m.readByte (s.reg ra + k) = s.fb.readByte (s.reg ra + k))

/-- R280: DPT.ENC and DPT.DEC with any selector outside the thirteen raise UnsupportedType, whatever the registers hold and wherever they point:
as commands, and as the words the host issues. The host's list is the model's choice (log entry 6). -/
def Obligations.UnknownSelectorsRaiseUnsupportedType : Prop :=
  (∀ (s : State) (rd ra rb : Reg) (sel : Byte),
    (∃ w, exec (.dptEncOther rd ra rb sel) s = .next (raised s 3 w)) ∧
    ∃ w, exec (.dptDecOther rd ra rb sel) s = .next (raised s 3 w)) ∧
  (∀ (s : State) (w : Word) (rest : List HostAction), s.host = .issue w :: rest →
    w.toNat / 2 ^ 24 = 0x60 ∨ w.toNat / 2 ^ 24 = 0x61 → w.toNat / 256 % 16 = 0 →
    w.toNat % 256 ∉ [1, 3, 5, 6, 7, 8, 9, 10, 11, 12, 13, 14, 232] →
    step s = .next (raised { s with host := rest } 3 w))

/-! ### The host's textual addresses -/

/-- R187, which the spec derives from R176, R181, R182 and R186: `parseAddress` of `formatAddress` gives the kind and
the octets back, for every kind and every two octets; `formatAddress` of what `parseAddress` accepted gives the text
back after normalization. A text that is not accepted is InvalidAddress carrying that text (R185), and a buffer
shorter than 2 octets is FrameTooShort (R186). That the host's functions are in the model is its choice
(log entry 17). -/
def Obligations.AddressTextRoundTrip : Prop :=
  (∀ (k : AddrKind) (hi lo : Byte),
    ∃ x, formatAddress [hi, lo] k = .ok x ∧ parseAddress x = .ok (k, [hi, lo])) ∧
  (∀ (x : Text) (k : AddrKind) (b : List Byte), parseAddress x = .ok (k, b) →
    b.length = 2 ∧ formatAddress b k = .ok (normalizeText k.separator x)) ∧
  (∀ (x : Text) (e : HostError), parseAddress x = .error e → e = .invalidAddress x) ∧
  (∀ (b : List Byte) (k : AddrKind), b.length < 2 → formatAddress b k = .error .frameTooShort) ∧
  (parseAddress "01.2.3".toList = .ok (.individual, [0x12, 0x03]) ∧
    formatAddress [0x12, 0x03] .individual = .ok "1.2.3".toList)
end

