-- ==== Sys2Proof/Laws/Memory.lean ====
section
/-! SUPPORT. The frame buffer: read after write, canonical form, ranges of octets, big-endian values. -/

namespace Sys2Proof.Machine

namespace Memory

/-- An address below every listed one has no value. -/
theorem readByte_eq_none_of_lt {m : Memory} {a : Nat} (h : ∀ c ∈ m, a < c.1) : m.readByte a = none := by
  induction m with
  | nil => rfl
  | cons c m ih =>
    have hc : a < c.1 := h c (by simp)
    have hne : c.1 ≠ a := by omega
    simp only [readByte, hne, ↓reduceIte]
    exact ih fun d hd => h d (by simp [hd])

/-- The octet just written is read back. -/
@[simp] theorem readByte_writeByte_self (m : Memory) (a : Nat) (b : Byte) :
    (m.writeByte a b).readByte a = some b := by
  induction m with
  | nil => simp [writeByte, readByte]
  | cons c m ih =>
    simp only [writeByte]
    split
    · simp [readByte]
    · split
      · simp [readByte]
      · rename_i _ hne
        have : c.1 ≠ a := fun h => hne h.symm
        simp only [readByte, this, ↓reduceIte, ih]

/-- Every other octet is as before. -/
theorem readByte_writeByte_ne {m : Memory} {a a' : Nat} (b : Byte) (h : a' ≠ a) :
    (m.writeByte a b).readByte a' = m.readByte a' := by
  induction m with
  | nil => simp [writeByte, readByte, h.symm]
  | cons c m ih =>
    simp only [writeByte]
    split
    · simp [readByte, h.symm]
    · split
      · rename_i _ he
        have hc : c.1 ≠ a' := by omega
        simp [readByte, h.symm, hc]
      · simp only [readByte, ih]

/-- The listed addresses after a write. -/
theorem mem_writeByte {m : Memory} {a : Nat} {b : Byte} {c : Host.Cell} (h : c ∈ m.writeByte a b) :
    c = (a, b) ∨ c ∈ m := by
  induction m with
  | nil => simpa [writeByte] using h
  | cons d m ih =>
    simp only [writeByte] at h
    split at h
    · simp only [List.mem_cons] at h ⊢; tauto
    · split at h
      · simp only [List.mem_cons] at h ⊢; tauto
      · simp only [List.mem_cons] at h ⊢
        rcases h with h | h
        · exact .inr (.inl h)
        · rcases ih h with h | h
          · exact .inl h
          · exact .inr (.inr h)

/-- A write keeps the canonical form. -/
theorem writeByte_wf {m : Memory} (a : Nat) (b : Byte) (h : m.wf) : (m.writeByte a b).wf := by
  induction m with
  | nil => simp [writeByte]
  | cons c m ih =>
    have hc := List.pairwise_cons.mp h
    simp only [writeByte]
    split
    · rename_i hlt
      refine List.pairwise_cons.mpr ⟨fun d hd => ?_, h⟩
      rcases List.mem_cons.mp hd with rfl | hd
      · exact hlt
      · exact Nat.lt_trans hlt (hc.1 d hd)
    · split
      · rename_i _ he
        exact List.pairwise_cons.mpr ⟨fun d hd => by have := hc.1 d hd; simpa [he] using this, hc.2⟩
      · rename_i hlt hne
        refine List.pairwise_cons.mpr ⟨fun d hd => ?_, ih hc.2⟩
        rcases mem_writeByte hd with rfl | hd
        · show c.1 < a
          omega
        · exact hc.1 d hd

/-- A range of octets keeps the canonical form. -/
theorem writeOctets_wf {m : Memory} (a : Nat) (bs : List Byte) (h : m.wf) : (m.writeOctets a bs).wf := by
  induction bs generalizing m a with
  | nil => exact h
  | cons b bs ih => exact ih (a + 1) (writeByte_wf a b h)

/-- The listed addresses after a range of octets is stored. -/
theorem mem_writeOctets {m : Memory} {a : Nat} {bs : List Byte} {c : Host.Cell} (h : c ∈ m.writeOctets a bs) :
    (a ≤ c.1 ∧ c.1 < a + bs.length) ∨ c ∈ m := by
  induction bs generalizing m a with
  | nil => exact .inr h
  | cons b bs ih =>
    rcases ih h with h | h
    · left; simp only [List.length_cons]; omega
    · rcases mem_writeByte h with rfl | h
      · left; simp
      · exact .inr h

/-- An octet outside the stored range is as before. -/
theorem readByte_writeOctets_outside {m : Memory} {a : Nat} {bs : List Byte} {a' : Nat}
    (h : a' < a ∨ a + bs.length ≤ a') : (m.writeOctets a bs).readByte a' = m.readByte a' := by
  induction bs generalizing m a with
  | nil => rfl
  | cons b bs ih =>
    simp only [List.length_cons] at h
    rw [writeOctets, ih (by omega), readByte_writeByte_ne b (by omega)]

/-- An octet inside the stored range is the one stored. -/
theorem readByte_writeOctets_inside {m : Memory} {a : Nat} {bs : List Byte} {k : Nat} (h : k < bs.length) :
    (m.writeOctets a bs).readByte (a + k) = some bs[k] := by
  induction bs generalizing m a k with
  | nil => simp at h
  | cons b bs ih =>
    rw [writeOctets]
    cases k with
    | zero => rw [readByte_writeOctets_outside (by omega)]; simp
    | succ k =>
      have := ih (m := m.writeByte a b) (a := a + 1) (k := k) (by simpa using h)
      rw [show a + (k + 1) = a + 1 + k by omega, this]
      simp

/-- A range of octets is read exactly if each of them has a value. -/
theorem readOctets_eq_ok {m : Memory} {a n : Nat} {bs : List Byte} :
    m.readOctets a n = .ok bs ↔ bs.length = n ∧ ∀ k, (h : k < bs.length) → m.readByte (a + k) = some bs[k] := by
  induction n generalizing a bs with
  | zero =>
    simp only [readOctets, Except.ok.injEq]
    constructor
    · rintro rfl; simp
    · rintro ⟨h, _⟩; exact (List.length_eq_zero_iff.mp h).symm
  | succ n ih =>
    rw [readOctets]
    constructor
    · intro h
      split at h
      · simp at h
      · rename_i b hb
        cases hr : m.readOctets (a + 1) n with
        | error e => rw [hr] at h; simp [Except.map] at h
        | ok cs =>
          rw [hr] at h
          simp only [Except.map, Except.ok.injEq] at h
          subst h
          obtain ⟨hl, hk⟩ := ih.mp hr
          refine ⟨by simp [hl], fun k hlt => ?_⟩
          cases k with
          | zero => simpa using hb
          | succ k =>
            have := hk k (by simpa using hlt)
            rw [show a + (k + 1) = a + 1 + k by omega, this]
            simp
    · rintro ⟨hl, hk⟩
      cases bs with
      | nil => simp at hl
      | cons b bs =>
        have hb : m.readByte a = some b := hk 0 (Nat.succ_pos _)
        have hr : m.readOctets (a + 1) n = .ok bs := by
          refine ih.mpr ⟨by simpa using hl, fun k hlt => ?_⟩
          have := hk (k + 1) (by simpa using hlt)
          rw [show a + 1 + k = a + (k + 1) by omega, this]
          simp
        simp [hb, hr, Except.map]

/-- Reading fails only at an octet of the range that has no value. -/
theorem readOctets_eq_error {m : Memory} {a n e : Nat} (h : m.readOctets a n = .error e) :
    a ≤ e ∧ e < a + n ∧ m.readByte e = none := by
  induction n generalizing a with
  | zero => simp [readOctets] at h
  | succ n ih =>
    rw [readOctets] at h
    split at h
    · rename_i hb
      simp only [Except.error.injEq] at h
      subst h
      exact ⟨by omega, by omega, hb⟩
    · cases hr : m.readOctets (a + 1) n with
      | error e' =>
        rw [hr] at h
        simp only [Except.map, Except.error.injEq] at h
        subst h
        have := ih hr
        exact ⟨by omega, by omega, this.2.2⟩
      | ok cs => rw [hr] at h; simp [Except.map] at h

/-- What was stored is read back. -/
theorem readOctets_writeOctets (m : Memory) (a : Nat) (bs : List Byte) :
    (m.writeOctets a bs).readOctets a bs.length = .ok bs :=
  readOctets_eq_ok.mpr ⟨rfl, fun _ h => readByte_writeOctets_inside h⟩

end Memory

/-- There are `n` octets. -/
@[simp] theorem length_beOctets (n v : Nat) : (beOctets n v).length = n := by
  induction n with
  | zero => rfl
  | succ n ih => simp [beOctets, ih]

/-- The big-endian value of a sequence, continuing from `v`. -/
theorem foldl_beNat (bs : List Byte) (v : Nat) :
    bs.foldl (fun v b => v * 256 + b.toNat) v = v * 256 ^ bs.length + beNat bs := by
  induction bs generalizing v with
  | nil => simp [beNat]
  | cons b bs ih =>
    simp only [beNat, List.foldl_cons, List.length_cons]
    rw [ih, ih (0 * 256 + b.toNat)]
    ring

/-- The first octet is the most significant. -/
theorem beNat_cons (b : Byte) (bs : List Byte) : beNat (b :: bs) = b.toNat * 256 ^ bs.length + beNat bs := by
  rw [beNat, List.foldl_cons, foldl_beNat]; simp

/-- The value of n octets is below 256^n. -/
theorem beNat_lt (bs : List Byte) : beNat bs < 256 ^ bs.length := by
  induction bs with
  | nil => simp [beNat]
  | cons b bs ih =>
    have hb : b.toNat < 256 := b.isLt
    rw [beNat_cons, List.length_cons, Nat.pow_succ]
    nlinarith

/-- The value of the n octets of `v` is `v mod 256^n`. -/
theorem beNat_beOctets (n v : Nat) : beNat (beOctets n v) = v % 256 ^ n := by
  induction n with
  | zero => simp [beOctets, beNat, Nat.mod_one]
  | succ n ih =>
    rw [beOctets, beNat_cons, length_beOctets, ih, BitVec.toNat_ofNat, Nat.shiftRight_eq_div_pow, Nat.pow_mul,
      show (2 ^ 8 : Nat) = 256 from rfl, Nat.pow_succ, Nat.mod_mul]
    ring

/-- The octets of the value of a sequence are the sequence. -/
theorem beOctets_beNat (bs : List Byte) : beOctets bs.length (beNat bs) = bs := by
  induction bs with
  | nil => rfl
  | cons b bs ih =>
    have hlt := beNat_lt bs
    have hb : b.toNat < 256 := b.isLt
    have hpos : 0 < 256 ^ bs.length := by positivity
    have hmod : ∀ n v w, beOctets n (v * 256 ^ n + w) = beOctets n w := by
      intro n
      induction n with
      | zero => intros; rfl
      | succ n ihn =>
        intro v w
        have e1 : v * 256 ^ (n + 1) + w = v * 256 * 256 ^ n + w := by ring
        rw [beOctets, beOctets, e1, ihn]
        congr 1
        apply BitVec.eq_of_toNat_eq
        rw [BitVec.toNat_ofNat, BitVec.toNat_ofNat, Nat.shiftRight_eq_div_pow, Nat.shiftRight_eq_div_pow,
          Nat.pow_mul, show (2 ^ 8 : Nat) = 256 from rfl, Nat.add_comm, Nat.add_mul_div_right _ _ (by positivity)]
        omega
    rw [List.length_cons, beOctets, beNat_cons, hmod, ih]
    congr 1
    apply BitVec.eq_of_toNat_eq
    rw [BitVec.toNat_ofNat, Nat.shiftRight_eq_div_pow, Nat.pow_mul, show (2 ^ 8 : Nat) = 256 from rfl,
      Nat.add_comm, Nat.add_mul_div_right _ _ hpos, Nat.div_eq_of_lt hlt]
    omega

end Sys2Proof.Machine
end

