-- ==== Sys2Proof/Laws/AddressText.lean ====
section
/-! SUPPORT. What the host's textual address functions answer, in terms of their numbers. -/

namespace Sys2Proof.Machine

/-- A text is accepted exactly where its five steps give a kind and a number, and the answer is the number's two
octets (44_address.md R181 to R185). -/
theorem parseAddress_eq_ok_iff (t : Text) (k : AddrKind) (b : List Byte) :
    parseAddress t = .ok (k, b) ↔ ∃ v, readAddress t = some (k, v) ∧ b = beOctets 2 v := by
  unfold parseAddress
  cases readAddress t with
  | none => simp
  | some p =>
    constructor
    · rintro ⟨rfl, rfl⟩; exact ⟨p.2, rfl, rfl⟩
    · rintro ⟨v, h, rfl⟩; cases h; rfl

@[simp] theorem formatAddress_octets (hi lo : Byte) (more : List Byte) (k : AddrKind) :
    formatAddress (hi :: lo :: more) k = .ok (formatNumber (beNat [hi, lo]) k) := rfl

/-- Two octets hold every 16-bit number. -/
theorem beNat_beOctets_two (v : Nat) (h : v < 65536) : beNat (beOctets 2 v) = v := by
  simp only [beOctets, beNat, List.foldl, BitVec.toNat_ofNat, Nat.shiftRight_eq_div_pow]
  omega

end Sys2Proof.Machine
end

