-- ==== Sys2Proof/Laws/State.lean ====
section
/-! SUPPORT. One lemma per field and state update, each true by definition. -/

namespace Sys2Proof.Machine

variable (s : State) (r : Reg) (v w : Word) (e : ErrorKind)

/-! ### setReg -/

@[simp] theorem State.setReg_config : (s.setReg r v).config = s.config := rfl
@[simp] theorem State.setReg_x : (s.setReg r v).x = s.x.set r v := rfl
@[simp] theorem State.setReg_xWritten : (s.setReg r v).xWritten = s.xWritten.set r true := rfl
@[simp] theorem State.setReg_lasterr : (s.setReg r v).lasterr = s.lasterr := rfl
@[simp] theorem State.setReg_faults : (s.setReg r v).faults = s.faults := rfl
@[simp] theorem State.setReg_errcmd : (s.setReg r v).errcmd = s.errcmd := rfl
@[simp] theorem State.setReg_flen : (s.setReg r v).flen = s.flen := rfl
@[simp] theorem State.setReg_rkind : (s.setReg r v).rkind = s.rkind := rfl
@[simp] theorem State.setReg_rlen : (s.setReg r v).rlen = s.rlen := rfl
@[simp] theorem State.setReg_fb : (s.setReg r v).fb = s.fb := rfl
@[simp] theorem State.setReg_host : (s.setReg r v).host = s.host := rfl
@[simp] theorem State.setReg_hostData : (s.setReg r v).hostData = s.hostData := rfl
@[simp] theorem State.setReg_freeCount : (s.setReg r v).freeCount = s.freeCount := rfl

@[simp] theorem State.setNat_eq (n : Nat) : s.setNat r n = s.setReg r (BitVec.ofNat 32 n) := rfl
@[simp] theorem State.setInt_eq (i : Int) : s.setInt r i = s.setReg r (BitVec.ofInt 32 i) := rfl

/-! ### raiseError -/

@[simp] theorem State.raiseError_config : (s.raiseError e w).config = s.config := rfl
@[simp] theorem State.raiseError_x : (s.raiseError e w).x = s.x := rfl
@[simp] theorem State.raiseError_xWritten : (s.raiseError e w).xWritten = s.xWritten := rfl
@[simp] theorem State.raiseError_lasterr : (s.raiseError e w).lasterr = BitVec.ofNat 32 e.code := rfl
@[simp] theorem State.raiseError_faults : (s.raiseError e w).faults = setFault s.faults e := rfl
@[simp] theorem State.raiseError_errcmd : (s.raiseError e w).errcmd = w := rfl
@[simp] theorem State.raiseError_flen : (s.raiseError e w).flen = s.flen := rfl
@[simp] theorem State.raiseError_rkind : (s.raiseError e w).rkind = s.rkind := rfl
@[simp] theorem State.raiseError_rlen : (s.raiseError e w).rlen = s.rlen := rfl
@[simp] theorem State.raiseError_fb : (s.raiseError e w).fb = s.fb := rfl
@[simp] theorem State.raiseError_host : (s.raiseError e w).host = s.host := rfl
@[simp] theorem State.raiseError_hostData : (s.raiseError e w).hostData = s.hostData := rfl
@[simp] theorem State.raiseError_freeCount : (s.raiseError e w).freeCount = s.freeCount := rfl

/-! ### complete -/

@[simp] theorem State.complete_config : (s.complete).config = s.config := rfl
@[simp] theorem State.complete_x : (s.complete).x = s.x := rfl
@[simp] theorem State.complete_xWritten : (s.complete).xWritten = s.xWritten := rfl
@[simp] theorem State.complete_lasterr : (s.complete).lasterr = 0 := rfl
@[simp] theorem State.complete_faults : (s.complete).faults = s.faults := rfl
@[simp] theorem State.complete_errcmd : (s.complete).errcmd = s.errcmd := rfl
@[simp] theorem State.complete_flen : (s.complete).flen = s.flen := rfl
@[simp] theorem State.complete_rkind : (s.complete).rkind = s.rkind := rfl
@[simp] theorem State.complete_rlen : (s.complete).rlen = s.rlen := rfl
@[simp] theorem State.complete_fb : (s.complete).fb = s.fb := rfl
@[simp] theorem State.complete_host : (s.complete).host = s.host := rfl
@[simp] theorem State.complete_hostData : (s.complete).hostData = s.hostData := rfl
@[simp] theorem State.complete_freeCount : (s.complete).freeCount = s.freeCount := rfl

/-! ### apRdResult -/

@[simp] theorem apRdResult_config (k n : Nat) : (apRdResult r v k n s).config = s.config := rfl
@[simp] theorem apRdResult_x (k n : Nat) : (apRdResult r v k n s).x = s.x.set r v := rfl
@[simp] theorem apRdResult_xWritten (k n : Nat) : (apRdResult r v k n s).xWritten = s.xWritten.set r true := rfl
@[simp] theorem apRdResult_lasterr (k n : Nat) : (apRdResult r v k n s).lasterr = s.lasterr := rfl
@[simp] theorem apRdResult_faults (k n : Nat) : (apRdResult r v k n s).faults = s.faults := rfl
@[simp] theorem apRdResult_errcmd (k n : Nat) : (apRdResult r v k n s).errcmd = s.errcmd := rfl
@[simp] theorem apRdResult_flen (k n : Nat) : (apRdResult r v k n s).flen = s.flen := rfl
@[simp] theorem apRdResult_rkind (k n : Nat) : (apRdResult r v k n s).rkind = BitVec.ofNat 32 k := rfl
@[simp] theorem apRdResult_rlen (k n : Nat) : (apRdResult r v k n s).rlen = BitVec.ofNat 32 n := rfl
@[simp] theorem apRdResult_fb (k n : Nat) : (apRdResult r v k n s).fb = s.fb := rfl
@[simp] theorem apRdResult_host (k n : Nat) : (apRdResult r v k n s).host = s.host := rfl
@[simp] theorem apRdResult_hostData (k n : Nat) : (apRdResult r v k n s).hostData = s.hostData := rfl
@[simp] theorem apRdResult_freeCount (k n : Nat) : (apRdResult r v k n s).freeCount = s.freeCount := rfl

/-! ### afterReset -/

@[simp] theorem State.afterReset_config : (s.afterReset).config = s.config := rfl
@[simp] theorem State.afterReset_x : (s.afterReset).x = State.reset.x := rfl
@[simp] theorem State.afterReset_xWritten : (s.afterReset).xWritten = State.reset.xWritten := rfl
@[simp] theorem State.afterReset_lasterr : (s.afterReset).lasterr = 0 := rfl
@[simp] theorem State.afterReset_faults : (s.afterReset).faults = 0 := rfl
@[simp] theorem State.afterReset_errcmd : (s.afterReset).errcmd = 0 := rfl
@[simp] theorem State.afterReset_flen : (s.afterReset).flen = 0 := rfl
@[simp] theorem State.afterReset_rkind : (s.afterReset).rkind = 0 := rfl
@[simp] theorem State.afterReset_rlen : (s.afterReset).rlen = 0 := rfl
@[simp] theorem State.afterReset_fb : (s.afterReset).fb = [] := rfl
@[simp] theorem State.afterReset_host : (s.afterReset).host = s.host := rfl
@[simp] theorem State.afterReset_hostData : (s.afterReset).hostData = s.hostData := rfl
@[simp] theorem State.afterReset_freeCount : (s.afterReset).freeCount = s.freeCount := rfl

/-! ### withFetchWord -/

@[simp] theorem State.withFetchWord_config (n k : Nat) : (s.withFetchWord n k).config = s.config := rfl
@[simp] theorem State.withFetchWord_x (n k : Nat) : (s.withFetchWord n k).x = s.x := rfl
@[simp] theorem State.withFetchWord_xWritten (n k : Nat) : (s.withFetchWord n k).xWritten = s.xWritten := rfl
@[simp] theorem State.withFetchWord_lasterr (n k : Nat) : (s.withFetchWord n k).lasterr = s.lasterr := rfl
@[simp] theorem State.withFetchWord_faults (n k : Nat) : (s.withFetchWord n k).faults = s.faults := rfl
@[simp] theorem State.withFetchWord_errcmd (n k : Nat) : (s.withFetchWord n k).errcmd = s.errcmd := rfl
@[simp] theorem State.withFetchWord_flen (n k : Nat) : (s.withFetchWord n k).flen = s.flen := rfl
@[simp] theorem State.withFetchWord_rkind (n k : Nat) : (s.withFetchWord n k).rkind = s.rkind := rfl
@[simp] theorem State.withFetchWord_rlen (n k : Nat) : (s.withFetchWord n k).rlen = s.rlen := rfl
@[simp] theorem State.withFetchWord_fb (n k : Nat) : (s.withFetchWord n k).fb = s.fb := rfl
@[simp] theorem State.withFetchWord_host (n k : Nat) : (s.withFetchWord n k).host = .issue (BitVec.ofNat 32 (k % 2 ^ n)) :: s.host := rfl
@[simp] theorem State.withFetchWord_hostData (n k : Nat) : (s.withFetchWord n k).hostData = s.hostData := rfl
@[simp] theorem State.withFetchWord_freeCount (n k : Nat) : (s.withFetchWord n k).freeCount = s.freeCount := rfl

/-! ### Reading registers -/

/-- A register reads as it was written. -/
@[simp] theorem State.setReg_get_self : (s.setReg r v).x.get r = v := by
  simp [State.setReg, Vector.get_eq_getElem]

/-- Another register keeps its value. -/
theorem State.setReg_get_ne {r' : Reg} (h : r' ≠ r) : (s.setReg r v).x.get r' = s.x.get r' := by
  have h' : r.val ≠ r'.val := fun hv => h (Fin.ext hv.symm)
  simp [State.setReg, Vector.get_eq_getElem, Vector.getElem_set_ne _ _ h']

/-- The number read from a register just written. -/
@[simp] theorem State.setReg_reg_self : (s.setReg r v).reg r = v.toNat := by
  simp only [State.reg, State.setReg_get_self]

/-- The number read from another register. -/
theorem State.setReg_reg_ne {r' : Reg} (h : r' ≠ r) : (s.setReg r v).reg r' = s.reg r' := by
  simp only [State.reg, State.setReg_get_ne s r v h]

/-- Registers are 32 bits wide. -/
theorem State.reg_lt : s.reg r < 2 ^ 32 := (s.x.get r).isLt

end Sys2Proof.Machine
end

