-- ==== Sys2Proof/Laws/Ops.lean ====
section
/-! SUPPORT. One lemma per shared operation: when it succeeds and what it then gives. -/

namespace Sys2Proof.Machine

variable {s t : State}

/-! ### Pseudocode that can end early -/

theorem bind_eq_ok {α β : Type} {x : Except Stop α} {f : α → Except Stop β} {b : β} :
    (x >>= f) = .ok b ↔ ∃ a, x = .ok a ∧ f a = .ok b := by
  cases x <;> simp [bind, Except.bind]

theorem bind_eq_error {α β : Type} {x : Except Stop α} {f : α → Except Stop β} {e : Stop} :
    (x >>= f) = .error e ↔ x = .error e ∨ ∃ a, x = .ok a ∧ f a = .error e := by
  cases x <;> simp [bind, Except.bind]

@[simp] theorem ok_bind {α β : Type} (a : α) (f : α → Except Stop β) : (Except.ok a >>= f) = f a := rfl

@[simp] theorem error_bind {α β : Type} (e : Stop) (f : α → Except Stop β) :
    ((Except.error e : Except Stop α) >>= f) = .error e := rfl

@[simp] theorem pure_eq_ok {α : Type} (a : α) : (pure a : Except Stop α) = .ok a := rfl

@[simp] theorem raise_eq {α : Type} (e : ErrorKind) : (raise e : Except Stop α) = .error (.raise e) := rfl

/-! ### How a command ends -/

/-- A command that ends in a next state has completed or has raised one error. -/
theorem finish_eq_next {i : Instr} {r : Except Stop State} (h : finish i s r = .next t) :
    (∃ u, r = .ok u ∧ t = u.complete) ∨ (∃ e, r = raise e ∧ t = s.raiseError e (encode i)) := by
  unfold finish at h
  split at h
  · exact .inl ⟨_, rfl, by simpa using h.symm⟩
  · exact .inr ⟨_, rfl, by simpa using h.symm⟩
  · simp at h

/-- A command is refused only where its pseudocode reads an octet without a value. -/
theorem finish_eq_refused {i : Instr} {r : Except Stop State} {q : Refusal} (h : finish i s r = .refused q) :
    ∃ a, r = .error (.unspecified a) ∧ q = .unspecifiedOctet i a := by
  unfold finish at h
  split at h
  · simp at h
  · simp at h
  · exact ⟨_, rfl, by simpa using h.symm⟩

/-- Every command ends by `finish`. -/
theorem exec_eq_finish (i : Instr) (s : State) : ∃ r, exec i s = finish i s r := by
  cases i
  case nop => exact ⟨.ok s, rfl⟩
  case li rd imm => exact ⟨.ok (s.setNat rd imm.toNat), rfl⟩
  case csrrLasterr rd => exact ⟨csrrBody .lasterr rd s, rfl⟩
  case csrrFaults rd => exact ⟨csrrBody .faults rd s, rfl⟩
  case csrrErrcmd rd => exact ⟨csrrBody .errcmd rd s, rfl⟩
  case csrrFlen rd => exact ⟨csrrBody .flen rd s, rfl⟩
  case csrrRkind rd => exact ⟨csrrBody .rkind rd s, rfl⟩
  case csrrRlen rd => exact ⟨csrrBody .rlen rd s, rfl⟩
  case csrwFaults ra => exact ⟨.ok { s with faults := clearFaults s.faults (s.x.get ra) }, rfl⟩
  case dptEncOther => exact ⟨raise .unsupportedType, rfl⟩
  case dptDecOther => exact ⟨raise .unsupportedType, rfl⟩
  all_goals exact ⟨_, rfl⟩

/-- Every error code is 1 to 6. -/
theorem code_range (e : ErrorKind) : 1 ≤ e.code ∧ e.code ≤ 6 := by cases e <;> decide

/-! ### Checks -/

theorem checkWindow_of_le {a n : Nat} (h : a + n ≤ s.flen.toNat) : checkWindow s a n = .ok () := by
  simp [checkWindow, h]

theorem checkWindow_of_gt {a n : Nat} (h : s.flen.toNat < a + n) : checkWindow s a n = raise .frameTooShort := by
  simp [checkWindow, Nat.not_le.mpr h]

theorem checkWindow_eq_ok {a n : Nat} {u : Unit} : checkWindow s a n = .ok u ↔ a + n ≤ s.flen.toNat := by
  unfold checkWindow; split <;> simp_all

theorem atMost_eq_ok {b v w : Nat} {e : ErrorKind} : atMost b e v = .ok w ↔ v ≤ b ∧ w = v := by
  unfold atMost
  split
  · simp; omega
  · simp; omega

theorem oct_eq_ok {v w : Nat} : oct v = .ok w ↔ v < 256 ∧ w = v := by
  unfold oct; split
  · simp_all [eq_comm]
  · simp_all

theorem u16_eq_ok {v w : Nat} : u16 v = .ok w ↔ v < 65536 ∧ w = v := by
  unfold u16; split
  · simp_all [eq_comm]
  · simp_all

theorem u24_eq_ok {v w : Nat} : u24 v = .ok w ↔ v < 2 ^ 24 ∧ w = v := by
  unfold u24; split
  · simp_all [eq_comm]
  · simp_all

/-! ### Access through the window -/

theorem memReadOctets_eq_ok {a n : Nat} {bs : List Byte} :
    memReadOctets s a n = .ok bs ↔ a + n ≤ s.flen.toNat ∧ s.fb.readOctets a n = .ok bs := by
  unfold memReadOctets
  rw [bind_eq_ok]
  constructor
  · rintro ⟨u, hu, h⟩
    refine ⟨checkWindow_eq_ok.mp hu, ?_⟩
    cases hr : s.fb.readOctets a n <;> simp_all [Except.mapError]
  · rintro ⟨hw, hr⟩
    exact ⟨(), checkWindow_of_le hw, by simp [hr, Except.mapError]⟩

theorem memRead_eq_ok {a n v : Nat} :
    memRead s a n = .ok v ↔
      a + n ≤ s.flen.toNat ∧ ∃ bs, s.fb.readOctets a n = .ok bs ∧ v = beNat bs := by
  unfold memRead
  constructor
  · intro h
    cases hr : memReadOctets s a n with
    | error e => simp [hr, Except.map] at h
    | ok bs =>
      obtain ⟨hw, hb⟩ := memReadOctets_eq_ok.mp hr
      exact ⟨hw, bs, hb, by simpa [hr, Except.map, eq_comm] using h⟩
  · rintro ⟨hw, bs, hb, rfl⟩
    simp [memReadOctets_eq_ok.mpr ⟨hw, hb⟩, Except.map]

/-- A read inside the window stops a command only at an octet of the range without a value. -/
theorem memReadOctets_eq_error {a n : Nat} {e : Stop} (h : memReadOctets s a n = .error e) :
    (s.flen.toNat < a + n ∧ e = .raise .frameTooShort) ∨
    (a + n ≤ s.flen.toNat ∧ ∃ k, e = .unspecified k ∧ a ≤ k ∧ k < a + n ∧ s.fb.readByte k = none) := by
  unfold memReadOctets at h
  rcases bind_eq_error.mp h with h | ⟨u, hu, h⟩
  · left
    unfold checkWindow at h
    split at h
    · simp at h
    · exact ⟨by omega, by simpa using h.symm⟩
  · right
    refine ⟨checkWindow_eq_ok.mp hu, ?_⟩
    cases hr : s.fb.readOctets a n with
    | ok bs => simp [hr, Except.mapError] at h
    | error k =>
      have := Memory.readOctets_eq_error hr
      exact ⟨k, by simpa [hr, Except.mapError, eq_comm] using h, this⟩

theorem memWriteOctets_eq_ok {a : Nat} {bs : List Byte} :
    memWriteOctets s a bs = .ok t ↔
      a + bs.length ≤ s.flen.toNat ∧ t = { s with fb := s.fb.writeOctets a bs } := by
  unfold memWriteOctets
  rw [bind_eq_ok]
  constructor
  · rintro ⟨u, hu, ht⟩; exact ⟨checkWindow_eq_ok.mp hu, by simpa [eq_comm] using ht⟩
  · rintro ⟨hw, rfl⟩; exact ⟨(), checkWindow_of_le hw, rfl⟩

theorem memWrite_eq_ok {a n v : Nat} :
    memWrite s a n v = .ok t ↔
      a + n ≤ s.flen.toNat ∧ t = { s with fb := s.fb.writeOctets a (beOctets n v) } := by
  unfold memWrite
  rw [memWriteOctets_eq_ok, length_beOctets]

/-! ### The shared bodies of the families -/

theorem loadBody_eq_ok {n : Nat} {rd ra : Reg} {imm : Byte} :
    loadBody n rd ra imm s = .ok t ↔
      ∃ v, memRead s (effAddr s ra imm) n = .ok v ∧ t = s.setNat rd v := by
  unfold loadBody
  rw [bind_eq_ok]
  simp [eq_comm]

theorem storeBody_eq_ok {n : Nat} {c : Nat → Except Stop Nat} {rb ra : Reg} {imm : Byte} :
    storeBody n c rb ra imm s = .ok t ↔
      ∃ v, c (s.reg rb) = .ok v ∧ effAddr s ra imm + n ≤ s.flen.toNat ∧
        t = { s with fb := s.fb.writeOctets (effAddr s ra imm) (beOctets n v) } := by
  unfold storeBody
  rw [bind_eq_ok]
  simp only [memWrite_eq_ok]

theorem getFieldBody_eq_ok {hi lo : Nat} {rd ra : Reg} :
    getFieldBody hi lo rd ra s = .ok t ↔
      s.reg ra < 256 ∧ t = s.setNat rd (bfGetNat (s.reg ra) hi lo) := by
  unfold getFieldBody
  rw [bind_eq_ok]
  simp only [oct_eq_ok]
  constructor
  · rintro ⟨a, ⟨h, rfl⟩, ht⟩; exact ⟨h, by simpa [eq_comm] using ht⟩
  · rintro ⟨h, rfl⟩; exact ⟨_, ⟨h, rfl⟩, rfl⟩

theorem setFieldBody_eq_ok {hi lo b : Nat} {e : ErrorKind} {rd ra rb : Reg} :
    setFieldBody hi lo b e rd ra rb s = .ok t ↔
      s.reg ra < 256 ∧ s.reg rb ≤ b ∧ t = s.setNat rd (bfSetNat (s.reg ra) hi lo (s.reg rb)) := by
  unfold setFieldBody
  simp only [bind_eq_ok, oct_eq_ok, atMost_eq_ok]
  constructor
  · rintro ⟨a, ⟨h, rfl⟩, v, ⟨h', rfl⟩, ht⟩; exact ⟨h, h', by simpa [eq_comm] using ht⟩
  · rintro ⟨h, h', rfl⟩; exact ⟨_, ⟨h, rfl⟩, _, ⟨h', rfl⟩, rfl⟩

theorem addressPartBody_eq_ok {hi lo : Nat} {rd ra : Reg} :
    addressPartBody hi lo rd ra s = .ok t ↔
      s.reg ra < 65536 ∧ t = s.setNat rd (bits (s.reg ra) hi lo) := by
  unfold addressPartBody
  rw [bind_eq_ok]
  simp only [u16_eq_ok]
  constructor
  · rintro ⟨a, ⟨h, rfl⟩, ht⟩; exact ⟨h, by simpa [eq_comm] using ht⟩
  · rintro ⟨h, rfl⟩; exact ⟨_, ⟨h, rfl⟩, rfl⟩

theorem checkDptLength_eq_ok {len n : Nat} {u : Unit} : checkDptLength len n = .ok u ↔ len = n := by
  unfold checkDptLength
  split
  · simp; omega
  · split
    · simp; omega
    · simp; omega

theorem checkApduLength_eq_ok {al need : Nat} {u : Unit} : checkApduLength al need = .ok u ↔ need ≤ al := by
  unfold checkApduLength; split <;> simp_all

theorem dptEncBody_eq_ok {d : Dpt} {rd ra rb : Reg} :
    dptEncBody d rd ra rb s = .ok t ↔
      ∃ o, dptEncode s.config.d9Round (s.reg ra) d = .ok o ∧ s.reg rb + dptWidth d ≤ s.flen.toNat ∧
        t = ({ s with fb := s.fb.writeOctets (s.reg rb) (beOctets (dptWidth d) o) } : State).setNat rd
          (dptWidth d) := by
  unfold dptEncBody
  simp only [bind_eq_ok, memWrite_eq_ok]
  constructor
  · rintro ⟨o, ho, u, ⟨hw, rfl⟩, ht⟩; exact ⟨o, ho, hw, by simpa [eq_comm] using ht⟩
  · rintro ⟨o, ho, hw, rfl⟩; exact ⟨o, ho, _, ⟨hw, rfl⟩, rfl⟩

theorem dptDecBody_eq_ok {d : Dpt} {rd ra rb : Reg} :
    dptDecBody d rd ra rb s = .ok t ↔
      s.reg ra + s.reg rb ≤ s.flen.toNat ∧ s.reg rb = dptWidth d ∧
        ∃ o v, memRead s (s.reg ra) (dptWidth d) = .ok o ∧ dptDecode o d = .ok v ∧ t = s.setReg rd v := by
  unfold dptDecBody
  simp only [bind_eq_ok, checkWindow_eq_ok, checkDptLength_eq_ok]
  constructor
  · rintro ⟨_, hw, _, hl, o, ho, v, hv, ht⟩; exact ⟨hw, hl, o, v, ho, hv, by simpa [eq_comm] using ht⟩
  · rintro ⟨hw, hl, o, v, ho, hv, rfl⟩; exact ⟨(), hw, (), hl, o, ho, v, hv, rfl⟩

theorem apWrBody_eq_ok {ra rb rc : Reg} :
    apWrBody ra rb rc s = .ok t ↔
      ∃ p, memReadOctets s (s.reg ra) (s.reg rb) = .ok p ∧
        (s.reg rb = 0 ∧ t = s ∨
         s.reg rb ≠ 0 ∧ ∃ q, apWrOctets s p (p.headD 0).toNat (s.reg rc) = .ok q ∧
           memWriteOctets s (apWrDest (s.reg rb) (p.headD 0).toNat (s.reg rc)) q = .ok t) := by
  unfold apWrBody
  rw [bind_eq_ok]
  apply exists_congr
  intro p
  apply and_congr_right
  intro _
  by_cases h : s.reg rb = 0
  · simp [h, eq_comm]
  · simp [h, bind_eq_ok]

/-- A word that an exponent of the search gives (46_dpt9.md R225, R227). -/
theorem d9Encode_eq_ok {m : Rounding} {num : Int} {den w : Nat} :
    d9Encode m num den = .ok w ↔
      ∃ E, d9Search num den = some E ∧ w = d9Word (d9Round m num (den * 2 ^ E)) E := by
  unfold d9Encode
  cases d9Search num den <;> simp [eq_comm]

end Sys2Proof.Machine
end

