-- ==== Sys2Proof/Laws/PerInstr.lean ====
section
/-! SUPPORT. The fields of an encoded command, one lemma per constructor (the family EncodedFields of LAWS.json). -/

namespace Sys2Proof

/-- The fields of a packed word are the ones packed (30_encoding.md R80). -/
theorem fields_pack (f : Fields) (h : f.op < 256) : fields (pack f) = f := by
  obtain ⟨op, rd, ra, rb, rc, imm⟩ := f
  have hi : imm.toNat < 256 := imm.isLt
  have h1 := rd.isLt
  have h2 := ra.isLt
  have h3 := rb.isLt
  have h4 := rc.isLt
  simp only at h
  have hw : (pack ⟨op, rd, ra, rb, rc, imm⟩).toNat
      = op * 2 ^ 24 + rd.val * 2 ^ 20 + ra.val * 2 ^ 16 + rb.val * 2 ^ 12 + rc.val * 2 ^ 8 + imm.toNat := by
    simp only [pack, BitVec.toNat_ofNat]
    omega
  simp only [fields, hw, bits, Nat.shiftRight_eq_div_pow, Fields.mk.injEq]
  refine ⟨by omega, ?_, ?_, ?_, ?_, ?_⟩
  · apply Fin.ext; simp only [Fin.ofNat]; omega
  · apply Fin.ext; simp only [Fin.ofNat]; omega
  · apply Fin.ext; simp only [Fin.ofNat]; omega
  · apply Fin.ext; simp only [Fin.ofNat]; omega
  · apply BitVec.eq_of_toNat_eq; simp only [BitVec.toNat_ofNat]; omega

/-- Every opcode is an octet (30_encoding.md R80). -/
theorem op_lt (i : Instr) : i.fields.op < 256 := by
  cases i <;> norm_num [Instr.fields]

namespace Laws.EncodedFields

/-- The decoder reads from a command's word the fields the encoder put there. -/
def Statement (i : Instr) : Prop := Sys2Proof.fields (encode i) = i.fields

theorem nop : Statement (.nop) := fields_pack _ (op_lt _)
theorem li (rd : Reg) (imm : Byte) : Statement (.li rd imm) := fields_pack _ (op_lt _)
theorem csrrLasterr (rd : Reg) : Statement (.csrrLasterr rd) := fields_pack _ (op_lt _)
theorem csrrFaults (rd : Reg) : Statement (.csrrFaults rd) := fields_pack _ (op_lt _)
theorem csrrErrcmd (rd : Reg) : Statement (.csrrErrcmd rd) := fields_pack _ (op_lt _)
theorem csrrFlen (rd : Reg) : Statement (.csrrFlen rd) := fields_pack _ (op_lt _)
theorem csrrRkind (rd : Reg) : Statement (.csrrRkind rd) := fields_pack _ (op_lt _)
theorem csrrRlen (rd : Reg) : Statement (.csrrRlen rd) := fields_pack _ (op_lt _)
theorem csrwFaults (ra : Reg) : Statement (.csrwFaults ra) := fields_pack _ (op_lt _)
theorem csrwFlen (ra : Reg) : Statement (.csrwFlen ra) := fields_pack _ (op_lt _)
theorem ldo (rd : Reg) (ra : Reg) (imm : Byte) : Statement (.ldo rd ra imm) := fields_pack _ (op_lt _)
theorem ld16 (rd : Reg) (ra : Reg) (imm : Byte) : Statement (.ld16 rd ra imm) := fields_pack _ (op_lt _)
theorem ld32 (rd : Reg) (ra : Reg) (imm : Byte) : Statement (.ld32 rd ra imm) := fields_pack _ (op_lt _)
theorem sto (rb : Reg) (ra : Reg) (imm : Byte) : Statement (.sto rb ra imm) := fields_pack _ (op_lt _)
theorem st16 (rb : Reg) (ra : Reg) (imm : Byte) : Statement (.st16 rb ra imm) := fields_pack _ (op_lt _)
theorem st32 (rb : Reg) (ra : Reg) (imm : Byte) : Statement (.st32 rb ra imm) := fields_pack _ (op_lt _)
theorem bfGet (rd : Reg) (ra : Reg) (hi : Fin 8) (lo : Fin 8) : Statement (.bfGet rd ra hi lo) := fields_pack _ (op_lt _)
theorem bfSet (rd : Reg) (ra : Reg) (rb : Reg) (hi : Fin 8) (lo : Fin 8) : Statement (.bfSet rd ra rb hi lo) := fields_pack _ (op_lt _)
theorem cfGft (rd : Reg) (ra : Reg) : Statement (.cfGft rd ra) := fields_pack _ (op_lt _)
theorem cfGrp (rd : Reg) (ra : Reg) : Statement (.cfGrp rd ra) := fields_pack _ (op_lt _)
theorem cfGpr (rd : Reg) (ra : Reg) : Statement (.cfGpr rd ra) := fields_pack _ (op_lt _)
theorem cfGtt (rd : Reg) (ra : Reg) : Statement (.cfGtt rd ra) := fields_pack _ (op_lt _)
theorem cfSft (rd : Reg) (ra : Reg) (rb : Reg) : Statement (.cfSft rd ra rb) := fields_pack _ (op_lt _)
theorem cfSrp (rd : Reg) (ra : Reg) (rb : Reg) : Statement (.cfSrp rd ra rb) := fields_pack _ (op_lt _)
theorem cfSpr (rd : Reg) (ra : Reg) (rb : Reg) : Statement (.cfSpr rd ra rb) := fields_pack _ (op_lt _)
theorem cfStt (rd : Reg) (ra : Reg) (rb : Reg) : Statement (.cfStt rd ra rb) := fields_pack _ (op_lt _)
theorem ecfGat (rd : Reg) (ra : Reg) : Statement (.ecfGat rd ra) := fields_pack _ (op_lt _)
theorem ecfGhc (rd : Reg) (ra : Reg) : Statement (.ecfGhc rd ra) := fields_pack _ (op_lt _)
theorem ecfGef (rd : Reg) (ra : Reg) : Statement (.ecfGef rd ra) := fields_pack _ (op_lt _)
theorem ecfSat (rd : Reg) (ra : Reg) (rb : Reg) : Statement (.ecfSat rd ra rb) := fields_pack _ (op_lt _)
theorem ecfShc (rd : Reg) (ra : Reg) (rb : Reg) : Statement (.ecfShc rd ra rb) := fields_pack _ (op_lt _)
theorem ecfSef (rd : Reg) (ra : Reg) (rb : Reg) : Statement (.ecfSef rd ra rb) := fields_pack _ (op_lt _)
theorem adPki (rd : Reg) (ra : Reg) (rb : Reg) (rc : Reg) : Statement (.adPki rd ra rb rc) := fields_pack _ (op_lt _)
theorem adPk2 (rd : Reg) (ra : Reg) (rb : Reg) : Statement (.adPk2 rd ra rb) := fields_pack _ (op_lt _)
theorem adPk3 (rd : Reg) (ra : Reg) (rb : Reg) (rc : Reg) : Statement (.adPk3 rd ra rb rc) := fields_pack _ (op_lt _)
theorem adGetIndArea (rd : Reg) (ra : Reg) : Statement (.adGetIndArea rd ra) := fields_pack _ (op_lt _)
theorem adGetIndLine (rd : Reg) (ra : Reg) : Statement (.adGetIndLine rd ra) := fields_pack _ (op_lt _)
theorem adGetIndDev (rd : Reg) (ra : Reg) : Statement (.adGetIndDev rd ra) := fields_pack _ (op_lt _)
theorem adGetG2Main (rd : Reg) (ra : Reg) : Statement (.adGetG2Main rd ra) := fields_pack _ (op_lt _)
theorem adGetG2Sub (rd : Reg) (ra : Reg) : Statement (.adGetG2Sub rd ra) := fields_pack _ (op_lt _)
theorem adGetG3Main (rd : Reg) (ra : Reg) : Statement (.adGetG3Main rd ra) := fields_pack _ (op_lt _)
theorem adGetG3Mid (rd : Reg) (ra : Reg) : Statement (.adGetG3Mid rd ra) := fields_pack _ (op_lt _)
theorem adGetG3Sub (rd : Reg) (ra : Reg) : Statement (.adGetG3Sub rd ra) := fields_pack _ (op_lt _)
theorem apDlen (rd : Reg) (ra : Reg) (rb : Reg) : Statement (.apDlen rd ra rb) := fields_pack _ (op_lt _)
theorem apWr (ra : Reg) (rb : Reg) (rc : Reg) : Statement (.apWr ra rb rc) := fields_pack _ (op_lt _)
theorem apRd (rd : Reg) (ra : Reg) (rb : Reg) (rc : Reg) : Statement (.apRd rd ra rb rc) := fields_pack _ (op_lt _)
theorem d9Dec (rd : Reg) (ra : Reg) : Statement (.d9Dec rd ra) := fields_pack _ (op_lt _)
theorem d9Encf (rd : Reg) (ra : Reg) : Statement (.d9Encf rd ra) := fields_pack _ (op_lt _)
theorem d9Encc (rd : Reg) (ra : Reg) : Statement (.d9Encc rd ra) := fields_pack _ (op_lt _)
theorem dptEnc1 (rd : Reg) (ra : Reg) (rb : Reg) : Statement (.dptEnc1 rd ra rb) := fields_pack _ (op_lt _)
theorem dptEnc3 (rd : Reg) (ra : Reg) (rb : Reg) : Statement (.dptEnc3 rd ra rb) := fields_pack _ (op_lt _)
theorem dptEnc5 (rd : Reg) (ra : Reg) (rb : Reg) : Statement (.dptEnc5 rd ra rb) := fields_pack _ (op_lt _)
theorem dptEnc6 (rd : Reg) (ra : Reg) (rb : Reg) : Statement (.dptEnc6 rd ra rb) := fields_pack _ (op_lt _)
theorem dptEnc7 (rd : Reg) (ra : Reg) (rb : Reg) : Statement (.dptEnc7 rd ra rb) := fields_pack _ (op_lt _)
theorem dptEnc8 (rd : Reg) (ra : Reg) (rb : Reg) : Statement (.dptEnc8 rd ra rb) := fields_pack _ (op_lt _)
theorem dptEnc9 (rd : Reg) (ra : Reg) (rb : Reg) : Statement (.dptEnc9 rd ra rb) := fields_pack _ (op_lt _)
theorem dptEnc10 (rd : Reg) (ra : Reg) (rb : Reg) : Statement (.dptEnc10 rd ra rb) := fields_pack _ (op_lt _)
theorem dptEnc11 (rd : Reg) (ra : Reg) (rb : Reg) : Statement (.dptEnc11 rd ra rb) := fields_pack _ (op_lt _)
theorem dptEnc12 (rd : Reg) (ra : Reg) (rb : Reg) : Statement (.dptEnc12 rd ra rb) := fields_pack _ (op_lt _)
theorem dptEnc13 (rd : Reg) (ra : Reg) (rb : Reg) : Statement (.dptEnc13 rd ra rb) := fields_pack _ (op_lt _)
theorem dptEnc14 (rd : Reg) (ra : Reg) (rb : Reg) : Statement (.dptEnc14 rd ra rb) := fields_pack _ (op_lt _)
theorem dptEnc232 (rd : Reg) (ra : Reg) (rb : Reg) : Statement (.dptEnc232 rd ra rb) := fields_pack _ (op_lt _)
theorem dptEncOther (rd : Reg) (ra : Reg) (rb : Reg) (sel : Byte) : Statement (.dptEncOther rd ra rb sel) := fields_pack _ (op_lt _)
theorem dptDec1 (rd : Reg) (ra : Reg) (rb : Reg) : Statement (.dptDec1 rd ra rb) := fields_pack _ (op_lt _)
theorem dptDec3 (rd : Reg) (ra : Reg) (rb : Reg) : Statement (.dptDec3 rd ra rb) := fields_pack _ (op_lt _)
theorem dptDec5 (rd : Reg) (ra : Reg) (rb : Reg) : Statement (.dptDec5 rd ra rb) := fields_pack _ (op_lt _)
theorem dptDec6 (rd : Reg) (ra : Reg) (rb : Reg) : Statement (.dptDec6 rd ra rb) := fields_pack _ (op_lt _)
theorem dptDec7 (rd : Reg) (ra : Reg) (rb : Reg) : Statement (.dptDec7 rd ra rb) := fields_pack _ (op_lt _)
theorem dptDec8 (rd : Reg) (ra : Reg) (rb : Reg) : Statement (.dptDec8 rd ra rb) := fields_pack _ (op_lt _)
theorem dptDec9 (rd : Reg) (ra : Reg) (rb : Reg) : Statement (.dptDec9 rd ra rb) := fields_pack _ (op_lt _)
theorem dptDec10 (rd : Reg) (ra : Reg) (rb : Reg) : Statement (.dptDec10 rd ra rb) := fields_pack _ (op_lt _)
theorem dptDec11 (rd : Reg) (ra : Reg) (rb : Reg) : Statement (.dptDec11 rd ra rb) := fields_pack _ (op_lt _)
theorem dptDec12 (rd : Reg) (ra : Reg) (rb : Reg) : Statement (.dptDec12 rd ra rb) := fields_pack _ (op_lt _)
theorem dptDec13 (rd : Reg) (ra : Reg) (rb : Reg) : Statement (.dptDec13 rd ra rb) := fields_pack _ (op_lt _)
theorem dptDec14 (rd : Reg) (ra : Reg) (rb : Reg) : Statement (.dptDec14 rd ra rb) := fields_pack _ (op_lt _)
theorem dptDec232 (rd : Reg) (ra : Reg) (rb : Reg) : Statement (.dptDec232 rd ra rb) := fields_pack _ (op_lt _)
theorem dptDecOther (rd : Reg) (ra : Reg) (rb : Reg) (sel : Byte) : Statement (.dptDecOther rd ra rb sel) := fields_pack _ (op_lt _)

end Laws.EncodedFields

end Sys2Proof
end

