-- ==== Sys2Proof/Tests/Slice0.lean ====
section
/-! SUPPORT. The model's own tests: expected values are those of spec/95_test_vectors.md and of the rules' worked
examples; and a witness for the hypotheses of each statement. -/

namespace Sys2Proof.Tests

open Sys2Proof.Machine Sys2Proof.Claims

/-! ### Helpers -/

/-- A state with FLEN, octets from `base` upwards, and general registers, all written. -/
def stAt (flen base : Nat) (fb : List Byte) (regs : List (Reg × Word)) : State :=
  regs.foldl (fun s p => s.setReg p.1 p.2)
    { State.reset with flen := BitVec.ofNat 32 flen, fb := Memory.writeOctets [] base fb }

/-- The same with the octets from 0 upwards. -/
def st (flen : Nat) (fb : List Byte) (regs : List (Reg × Word)) : State := stAt flen 0 fb regs

/-- The outcome is a next state with the property. -/
def nextSat (o : Host.Outcome State Fault Refusal) (p : State → Bool) : Bool :=
  match o with
  | .next t => p t
  | .fault _ => false
  | .refused _ => false

theorem exists_next {o : Host.Outcome State Fault Refusal} {p : State → Bool} (h : nextSat o p = true) :
    ∃ t, o = .next t ∧ p t = true := by
  cases o with
  | next t => exact ⟨t, rfl, h⟩
  | fault _ => simp [nextSat] at h
  | refused _ => simp [nextSat] at h

/-- Completed without error, with `v` in `x[r]`. -/
def xIs (o : Host.Outcome State Fault Refusal) (r : Reg) (v : Word) : Bool :=
  nextSat o fun t => t.lasterr == 0 && t.x.get r == v

/-- Completed without error, with the octets `bs` at `a`. -/
def fbIs (o : Host.Outcome State Fault Refusal) (a : Nat) (bs : List Byte) : Bool :=
  nextSat o fun t => t.lasterr == 0 && (t.fb.readOctets a bs.length).toOption == some bs

/-- Raised the error with code `k`. -/
def errIs (o : Host.Outcome State Fault Refusal) (k : Nat) : Bool :=
  nextSat o fun t => t.lasterr == BitVec.ofNat 32 k && t.faults == 1#32 <<< k

/-- Completed without error. -/
def okIs (o : Host.Outcome State Fault Refusal) : Bool := nextSat o fun t => t.lasterr == 0

/-! ### Well-formedness: each check refuses an ill-formed term -/

theorem test_wf_bfGet_range : (Instr.bfGet 2 1 3 4).wf = false ∧ (Instr.bfGet 2 1 4 4).wf = true := by decide
theorem test_wf_bfSet_range : (Instr.bfSet 3 1 2 0 7).wf = false ∧ (Instr.bfSet 3 1 2 7 0).wf = true := by decide
theorem test_wf_dptEncOther_selector :
    (Instr.dptEncOther 4 1 2 7).wf = false ∧ (Instr.dptEncOther 4 1 2 16).wf = true := by decide
theorem test_wf_dptDecOther_selector :
    (Instr.dptDecOther 5 2 3 232).wf = false ∧ (Instr.dptDecOther 5 2 3 233).wf = true := by decide

/-! ### Decoding: a word of each constructor, from the encodings of 30_encoding.md R80, R83 to R85 -/

theorem test_decode_system :
    (decode 0x00000000).toOption = some .nop ∧ (decode 0x017000FF).toOption = some (.li 7 0xFF) ∧
    (decode 0x02A00000).toOption = some (.csrrLasterr 10) ∧ (decode 0x02B00001).toOption = some (.csrrFaults 11) ∧
    (decode 0x02100002).toOption = some (.csrrErrcmd 1) ∧ (decode 0x02200003).toOption = some (.csrrFlen 2) ∧
    (decode 0x02700004).toOption = some (.csrrRkind 7) ∧ (decode 0x02800005).toOption = some (.csrrRlen 8) ∧
    (decode 0x03040001).toOption = some (.csrwFaults 4) ∧ (decode 0x03030003).toOption = some (.csrwFlen 3) := by
  decide

theorem test_decode_buffer :
    (decode 0x08510002).toOption = some (.ldo 5 1 2) ∧ (decode 0x09610004).toOption = some (.ld16 6 1 4) ∧
    (decode 0x0A720000).toOption = some (.ld32 7 2 0) ∧ (decode 0x0C015003).toOption = some (.sto 5 1 3) ∧
    (decode 0x0D016006).toOption = some (.st16 6 1 6) ∧ (decode 0x0E017008).toOption = some (.st32 7 1 8) := by
  decide

theorem test_decode_bitfield :
    (decode 0x10210054).toOption = some (.bfGet 2 1 5 4) ∧
    (decode 0x11312063).toOption = some (.bfSet 3 1 2 6 3) := by decide

theorem test_decode_control_field :
    (decode 0x20210000).toOption = some (.cfGft 2 1) ∧ (decode 0x21210000).toOption = some (.cfGrp 2 1) ∧
    (decode 0x22210000).toOption = some (.cfGpr 2 1) ∧ (decode 0x23210000).toOption = some (.cfGtt 2 1) ∧
    (decode 0x24312000).toOption = some (.cfSft 3 1 2) ∧ (decode 0x25312000).toOption = some (.cfSrp 3 1 2) ∧
    (decode 0x26312000).toOption = some (.cfSpr 3 1 2) ∧ (decode 0x27312000).toOption = some (.cfStt 3 1 2) := by
  decide

theorem test_decode_ext_control_field :
    (decode 0x28210000).toOption = some (.ecfGat 2 1) ∧ (decode 0x29210000).toOption = some (.ecfGhc 2 1) ∧
    (decode 0x2A210000).toOption = some (.ecfGef 2 1) ∧ (decode 0x2C312000).toOption = some (.ecfSat 3 1 2) ∧
    (decode 0x2D312000).toOption = some (.ecfShc 3 1 2) ∧ (decode 0x2E312000).toOption = some (.ecfSef 3 1 2) := by
  decide

theorem test_decode_address :
    (decode 0x30412300).toOption = some (.adPki 4 1 2 3) ∧ (decode 0x31412000).toOption = some (.adPk2 4 1 2) ∧
    (decode 0x32412300).toOption = some (.adPk3 4 1 2 3) ∧
    (decode 0x34540000).toOption = some (.adGetIndArea 5 4) ∧
    (decode 0x34540001).toOption = some (.adGetIndLine 5 4) ∧
    (decode 0x34540002).toOption = some (.adGetIndDev 5 4) ∧
    (decode 0x34540010).toOption = some (.adGetG2Main 5 4) ∧
    (decode 0x34540011).toOption = some (.adGetG2Sub 5 4) ∧
    (decode 0x34540020).toOption = some (.adGetG3Main 5 4) ∧
    (decode 0x34EA0021).toOption = some (.adGetG3Mid 14 10) ∧
    (decode 0x34540022).toOption = some (.adGetG3Sub 5 4) := by decide

theorem test_decode_apdu_and_dpt9 :
    (decode 0x40412000).toOption = some (.apDlen 4 1 2) ∧ (decode 0x41012300).toOption = some (.apWr 1 2 3) ∧
    (decode 0x42512300).toOption = some (.apRd 5 1 2 3) ∧ (decode 0x50210000).toOption = some (.d9Dec 2 1) ∧
    (decode 0x51210000).toOption = some (.d9Encf 2 1) ∧ (decode 0x52210000).toOption = some (.d9Encc 2 1) := by
  decide

theorem test_decode_dpt_encode :
    (decode 0x60412001).toOption = some (.dptEnc1 4 1 2) ∧ (decode 0x60412003).toOption = some (.dptEnc3 4 1 2) ∧
    (decode 0x60412005).toOption = some (.dptEnc5 4 1 2) ∧ (decode 0x60412006).toOption = some (.dptEnc6 4 1 2) ∧
    (decode 0x60412007).toOption = some (.dptEnc7 4 1 2) ∧ (decode 0x60412008).toOption = some (.dptEnc8 4 1 2) ∧
    (decode 0x60412009).toOption = some (.dptEnc9 4 1 2) ∧ (decode 0x6041200A).toOption = some (.dptEnc10 4 1 2) ∧
    (decode 0x6041200B).toOption = some (.dptEnc11 4 1 2) ∧ (decode 0x6041200C).toOption = some (.dptEnc12 4 1 2) ∧
    (decode 0x6041200D).toOption = some (.dptEnc13 4 1 2) ∧ (decode 0x6041200E).toOption = some (.dptEnc14 4 1 2) ∧
    (decode 0x604120E8).toOption = some (.dptEnc232 4 1 2) ∧
    (decode 0x60412010).toOption = some (.dptEncOther 4 1 2 16) := by decide

theorem test_decode_dpt_decode :
    (decode 0x61523001).toOption = some (.dptDec1 5 2 3) ∧ (decode 0x61523003).toOption = some (.dptDec3 5 2 3) ∧
    (decode 0x61523005).toOption = some (.dptDec5 5 2 3) ∧ (decode 0x61523006).toOption = some (.dptDec6 5 2 3) ∧
    (decode 0x61523007).toOption = some (.dptDec7 5 2 3) ∧ (decode 0x61523008).toOption = some (.dptDec8 5 2 3) ∧
    (decode 0x61523009).toOption = some (.dptDec9 5 2 3) ∧ (decode 0x6152300A).toOption = some (.dptDec10 5 2 3) ∧
    (decode 0x6152300B).toOption = some (.dptDec11 5 2 3) ∧ (decode 0x6152300C).toOption = some (.dptDec12 5 2 3) ∧
    (decode 0x6152300D).toOption = some (.dptDec13 5 2 3) ∧ (decode 0x6152300E).toOption = some (.dptDec14 5 2 3) ∧
    (decode 0x615230E8).toOption = some (.dptDec232 5 2 3) ∧
    (decode 0x61523002).toOption = some (.dptDecOther 5 2 3 2) := by decide

/-- The words of 95_test_vectors.md 2.1 that raise IllegalCommand. -/
theorem test_decode_rejects :
    [0x00000001#32, 0x04000000#32, 0xFF000000#32, 0x01100100#32, 0x02100006#32, 0x03010000#32, 0x03010002#32,
     0x03110003#32, 0x10210080#32, 0x10210008#32, 0x10210034#32, 0x34210003#32, 0x34210012#32, 0x34210030#32,
     0x20211000#32, 0x50210001#32, 0x41112300#32].all (fun w => (decode w).toOption.isNone) = true := by decide

/-! ### Commands: vectors of 95_test_vectors.md part 2 and the rules' examples -/

/-- R100's example: after LASTERR = 2, NOP leaves LASTERR 0 and FAULTS bit 2 set. -/
theorem test_nop : nextSat (exec .nop { State.reset with lasterr := 2, faults := 4 })
    (fun t => t.lasterr == 0 && t.faults == 4) = true := by decide
theorem test_li : xIs (exec (.li 7 0xFF) State.reset) 7 0xFF = true := by decide
/-- R102: CSRR delivers the previous code; LASTERR is then 0. Program P2's last command. -/
theorem test_csrr_lasterr :
    xIs (exec (.csrrLasterr 10) { State.reset with lasterr := 5 }) 10 5 = true := by decide
/-- Programs P1, P2 and P3 and 2.1. -/
theorem test_csrr : (xIs (exec (.csrrFaults 11) { State.reset with faults := 0x20 }) 11 0x20 &&
    xIs (exec (.csrrErrcmd 1) { State.reset with errcmd := 0x09A00006 }) 1 0x09A00006 &&
    xIs (exec (.csrrFlen 1) { State.reset with flen := 0x14 }) 1 0x14 &&
    xIs (exec (.csrrRkind 7) { State.reset with rkind := 3 }) 7 3 &&
    xIs (exec (.csrrRlen 8) { State.reset with rlen := 2 }) 8 2) = true := by decide
theorem test_csrw_faults : nextSat (exec (.csrwFaults 2) { st 0 [] [(2, 0x7E)] with faults := 0x7E })
    (fun t => t.faults == 0) = true ∧
    nextSat (exec (.csrwFaults 2) { st 0 [] [(2, 0x85)] with faults := 0x7E }) (fun t => t.faults == 0x7A) = true := by
  decide
theorem test_csrw_flen : nextSat (exec (.csrwFlen 2) (st 0 [] [(2, 0x100)])) (fun t => t.flen == 0x100) = true ∧
    errIs (exec (.csrwFlen 2) (st 0 [] [(2, 0x101)])) 2 = true := by decide

/-- The start of 2.2. -/
def fb8 : List Byte := [0x11, 0x22, 0x33, 0x44, 0x55, 0x66, 0x77, 0x88]

theorem test_ldo : xIs (exec (.ldo 2 1 7) (st 8 fb8 [(1, 0)])) 2 0x88 = true ∧
    errIs (exec (.ldo 2 1 7) (st 7 fb8 [(1, 0)])) 5 = true := by decide
theorem test_ld16 : xIs (exec (.ld16 2 1 2) (st 8 fb8 [(1, 1)])) 2 0x4455 = true ∧
    errIs (exec (.ld16 2 1 7) (st 8 fb8 [(1, 0)])) 5 = true := by decide
theorem test_ld32 : xIs (exec (.ld32 2 1 0) (st 8 fb8 [(1, 1)])) 2 0x22334455 = true ∧
    errIs (exec (.ld32 2 1 1) (st 8 fb8 [(1, 0xFFFFFFFF)])) 5 = true := by decide
theorem test_sto : fbIs (exec (.sto 2 1 3) (st 8 fb8 [(1, 0), (2, 0xAB)])) 2 [0x33, 0xAB, 0x55] = true ∧
    errIs (exec (.sto 2 1 3) (st 8 fb8 [(1, 0), (2, 0x100)])) 2 = true := by decide
theorem test_st16 : fbIs (exec (.st16 2 1 2) (st 8 fb8 [(1, 1), (2, 0xBEEF)])) 3 [0xBE, 0xEF] = true ∧
    errIs (exec (.st16 2 1 0) (st 8 fb8 [(1, 7), (2, 0x10000)])) 2 = true := by decide
theorem test_st32 :
    fbIs (exec (.st32 2 1 1) (st 8 fb8 [(1, 3), (2, 0xDEADBEEF)])) 4 [0xDE, 0xAD, 0xBE, 0xEF] = true ∧
    errIs (exec (.st32 2 1 2) (st 8 fb8 [(1, 3), (2, 0xDEADBEEF)])) 5 = true := by decide
/-- U2: an octet inside the window that nothing has written. -/
theorem test_ldo_unwritten : nextSat (exec (.ldo 2 1 0) (st 8 [] [(1, 0)])) (fun _ => true) = false := by decide

theorem test_bfGet : xIs (exec (.bfGet 2 1 5 4) (st 0 [] [(1, 0xBC)])) 2 3 = true ∧
    errIs (exec (.bfGet 2 1 3 3) (st 0 [] [(1, 0x100)])) 2 = true := by decide
theorem test_bfSet : xIs (exec (.bfSet 3 1 2 2 1) (st 0 [] [(1, 0xFF), (2, 0)])) 3 0xF9 = true ∧
    errIs (exec (.bfSet 3 1 2 2 1) (st 0 [] [(1, 0), (2, 4)])) 2 = true := by decide

/-- 2.4, the row of 5A. -/
theorem test_cf_getters : (xIs (exec (.cfGft 2 1) (st 0 [] [(1, 0x5A)])) 2 0 &&
    xIs (exec (.cfGrp 2 1) (st 0 [] [(1, 0x5A)])) 2 1 && xIs (exec (.cfGpr 2 1) (st 0 [] [(1, 0x5A)])) 2 1 &&
    xIs (exec (.cfGtt 2 1) (st 0 [] [(1, 0x5A)])) 2 0xA) = true := by decide
theorem test_cfSft : xIs (exec (.cfSft 3 1 2) (st 0 [] [(1, 0xBC), (2, 0)])) 3 0x3C = true ∧
    errIs (exec (.cfSft 3 1 2) (st 0 [] [(1, 0xBC), (2, 2)])) 3 = true := by decide
theorem test_cfSrp : xIs (exec (.cfSrp 3 1 2) (st 0 [] [(1, 0xBC), (2, 1)])) 3 0xFC = true ∧
    errIs (exec (.cfSrp 3 1 2) (st 0 [] [(1, 0xBC), (2, 2)])) 2 = true := by decide
theorem test_cfSpr : xIs (exec (.cfSpr 3 1 2) (st 0 [] [(1, 0xBC), (2, 1)])) 3 0x9C = true ∧
    errIs (exec (.cfSpr 3 1 2) (st 0 [] [(1, 0xBC), (2, 4)])) 3 = true := by decide
theorem test_cfStt : xIs (exec (.cfStt 3 1 2) (st 0 [] [(1, 0xBC), (2, 0xF)])) 3 0xBF = true ∧
    errIs (exec (.cfStt 3 1 2) (st 0 [] [(1, 0xBC), (2, 0x10)])) 2 = true := by decide

/-- 2.5, the row of E0; and bits 2:1 of 86 are read by no getter. -/
theorem test_ecf_getters : (xIs (exec (.ecfGat 2 1) (st 0 [] [(1, 0xE0)])) 2 1 &&
    xIs (exec (.ecfGhc 2 1) (st 0 [] [(1, 0xE0)])) 2 0xC &&
    xIs (exec (.ecfGef 2 1) (st 0 [] [(1, 0x86)])) 2 0) = true := by decide
theorem test_ecfSat : xIs (exec (.ecfSat 3 1 2) (st 0 [] [(1, 0x06), (2, 1)])) 3 0x86 = true ∧
    errIs (exec (.ecfSat 3 1 2) (st 0 [] [(1, 0x06), (2, 2)])) 3 = true := by decide
theorem test_ecfShc : xIs (exec (.ecfShc 3 1 2) (st 0 [] [(1, 0x06), (2, 6)])) 3 0x36 = true ∧
    errIs (exec (.ecfShc 3 1 2) (st 0 [] [(1, 0x06), (2, 0xFFFFFFFF)])) 2 = true := by decide
theorem test_ecfSef : xIs (exec (.ecfSef 3 1 2) (st 0 [] [(1, 0x06), (2, 1)])) 3 0x07 = true ∧
    errIs (exec (.ecfSef 3 1 2) (st 0 [] [(1, 0x06), (2, 2)])) 2 = true := by decide

/-- S1, S4. -/
theorem test_adPki : xIs (exec (.adPki 4 1 2 3) (st 0 [] [(1, 1), (2, 2), (3, 3)])) 4 0x1203 = true ∧
    errIs (exec (.adPki 4 1 2 3) (st 0 [] [(1, 99), (2, 0), (3, 0)])) 1 = true := by decide
/-- S3, 2.6. -/
theorem test_adPk2 : xIs (exec (.adPk2 4 1 2) (st 0 [] [(1, 1), (2, 100)])) 4 0x0864 = true ∧
    errIs (exec (.adPk2 4 1 2) (st 0 [] [(1, 0), (2, 0x800)])) 1 = true := by decide
/-- S2, S5. -/
theorem test_adPk3 : xIs (exec (.adPk3 4 1 2 3) (st 0 [] [(1, 1), (2, 2), (3, 3)])) 4 0x0A03 = true ∧
    errIs (exec (.adPk3 4 1 2 3) (st 0 [] [(1, 1), (2, 8), (3, 3)])) 1 = true := by decide
/-- 2.6, the row of 0A03. -/
theorem test_adGet : (xIs (exec (.adGetIndArea 2 1) (st 0 [] [(1, 0x0A03)])) 2 0 &&
    xIs (exec (.adGetIndLine 2 1) (st 0 [] [(1, 0x0A03)])) 2 0xA &&
    xIs (exec (.adGetIndDev 2 1) (st 0 [] [(1, 0x0A03)])) 2 3 &&
    xIs (exec (.adGetG2Main 2 1) (st 0 [] [(1, 0x0A03)])) 2 1 &&
    xIs (exec (.adGetG2Sub 2 1) (st 0 [] [(1, 0x0A03)])) 2 0x203 &&
    xIs (exec (.adGetG3Main 2 1) (st 0 [] [(1, 0x0A03)])) 2 1 &&
    xIs (exec (.adGetG3Mid 2 1) (st 0 [] [(1, 0x0A03)])) 2 2 &&
    xIs (exec (.adGetG3Sub 2 1) (st 0 [] [(1, 0x0A03)])) 2 3) = true := by decide
theorem test_adGet_carrier : errIs (exec (.adGetG2Sub 2 1) (st 0 [] [(1, 0x10000)])) 2 = true := by decide

/-- The payload area of 2.7: octets from 16, FLEN 24, the payload's base and length in x1 and x2. -/
def payload (p : List Byte) : State :=
  { stAt 24 16 p [(1, 16), (2, BitVec.ofNat 32 p.length), (3, 1)] with
    fb := Memory.writeOctets (Memory.writeOctets [] 0 [0x00, 0x80, 0, 0, 0, 0, 0, 0]) 16 p }

theorem test_apDlen : xIs (exec (.apDlen 4 1 2) (payload [0x3F])) 4 2 = true ∧
    xIs (exec (.apDlen 4 1 2) (payload [0x42, 0xC8, 0x00, 0x00])) 4 3 = true := by decide
theorem test_apDlen_edges : xIs (exec (.apDlen 4 1 2) (st 24 [] [(1, 24), (2, 0)])) 4 0 = true ∧
    errIs (exec (.apDlen 4 1 2) (st 24 [] [(1, 25), (2, 0)])) 5 = true := by decide
theorem test_apWr_octet : fbIs (exec (.apWr 1 2 3) (payload [0x3E])) 0 [0x00, 0xBE, 0x00] = true ∧
    fbIs (exec (.apWr 1 2 3) (payload [0x3F])) 0 [0x00, 0x80, 0x3F, 0x00] = true := by decide
theorem test_apWr_float_and_copy :
    fbIs (exec (.apWr 1 2 3) (payload [0x42, 0xC8, 0x00, 0x00])) 0 [0x00, 0x80, 0x1C, 0xE2, 0x00] = true ∧
    fbIs (exec (.apWr 1 2 3) (st 8 [1, 2, 3, 9, 9, 9, 9, 9] [(1, 0), (2, 3), (3, 1)])) 0
      [1, 1, 2, 3, 9, 9, 9, 9] = true := by decide
theorem test_apRd : nextSat (exec (.apRd 5 1 2 3) (st 4 [0x00, 0x80, 0x1C, 0xE2] [(1, 0), (2, 4), (3, 3)]))
      (fun t => t.x.get 5 == 0x2710 && t.rkind == 3 && t.rlen == 2) = true ∧
    nextSat (exec (.apRd 5 1 2 3) (st 6 [] [(1, 0), (2, 6), (3, 0xFFFFFFFF)]))
      (fun t => t.x.get 5 == 0 && t.rkind == 4 && t.rlen == 6) = true := by decide

/-- 2.8. -/
theorem test_d9Dec : xIs (exec (.d9Dec 2 1) (st 0 [] [(1, 0x8000)])) 2 0xFFFFF800 = true ∧
    xIs (exec (.d9Dec 2 1) (st 0 [] [(1, 0x7FFF)])) 2 0x03FF8000 = true := by decide
theorem test_d9Encc : xIs (exec (.d9Encc 2 1) (st 0 [] [(1, 0xFFFFEFFF)])) 2 0x9400 = true ∧
    xIs (exec (.d9Encc 2 1) (st 0 [] [(1, 2049)])) 2 0x0C01 = true := by decide
theorem test_d9Encf : xIs (exec (.d9Encf 2 1) (st 0 [] [(1, 0xC923D70A)])) 2 0xF800 = true ∧
    errIs (exec (.d9Encf 2 1) (st 0 [] [(1, 0x7FC00000)])) 4 = true := by decide
/-- 2.8, the column of `nearest_even`. -/
theorem test_d9Encc_even : xIs (exec (.d9Encc 2 1)
    { st 0 [] [(1, 2049)] with config := { fbBytes := 256, d9Round := .nearestEven } }) 2 0x0C00 = true := by decide

/-- DPT.ENC's setting in 2.9: value in x1, x2 = 8, FLEN 16. -/
def enc (v : Word) : State := st 16 [] [(1, v), (2, 8)]

theorem test_dptEnc_octet : fbIs (exec (.dptEnc1 4 1 2) (enc 1)) 8 [1] = true ∧
    fbIs (exec (.dptEnc3 4 1 2) (enc 0xF)) 8 [0xF] = true ∧ fbIs (exec (.dptEnc5 4 1 2) (enc 0)) 8 [0] = true ∧
    fbIs (exec (.dptEnc6 4 1 2) (enc 0xFFFFFF80)) 8 [0x80] = true := by decide
theorem test_dptEnc_octet_range : (errIs (exec (.dptEnc1 4 1 2) (enc 2)) 2 &&
    errIs (exec (.dptEnc3 4 1 2) (enc 0x10)) 2 && errIs (exec (.dptEnc5 4 1 2) (enc 0x100)) 2 &&
    errIs (exec (.dptEnc6 4 1 2) (enc 0x80)) 2) = true := by decide
theorem test_dptEnc_two_octets : fbIs (exec (.dptEnc7 4 1 2) (enc 0x1234)) 8 [0x12, 0x34] = true ∧
    fbIs (exec (.dptEnc8 4 1 2) (enc 0xFFFF8000)) 8 [0x80, 0x00] = true ∧
    fbIs (exec (.dptEnc9 4 1 2) (enc 2150)) 8 [0x0C, 0x33] = true ∧
    errIs (exec (.dptEnc8 4 1 2) (enc 0x8000)) 2 = true := by decide
theorem test_dptEnc_triples : fbIs (exec (.dptEnc10 4 1 2) (enc 0xFFFFFF)) 8 [0x1F, 0x3F, 0x3F] = true ∧
    fbIs (exec (.dptEnc11 4 1 2) (enc 0x0F0B7E)) 8 [0x0F, 0x0B, 0x7E] = true ∧
    errIs (exec (.dptEnc11 4 1 2) (enc 0x011001)) 2 = true ∧
    fbIs (exec (.dptEnc232 4 1 2) (enc 0xFF8000)) 8 [0xFF, 0x80, 0x00] = true := by decide
theorem test_dptEnc_words : fbIs (exec (.dptEnc12 4 1 2) (enc 0xDEADBEEF)) 8 [0xDE, 0xAD, 0xBE, 0xEF] = true ∧
    fbIs (exec (.dptEnc13 4 1 2) (enc 0x80000000)) 8 [0x80, 0, 0, 0] = true ∧
    fbIs (exec (.dptEnc14 4 1 2) (enc 0x7FC00000)) 8 [0x7F, 0xC0, 0, 0] = true ∧
    xIs (exec (.dptEnc14 4 1 2) (enc 0x7FC00000)) 4 4 = true := by decide
/-- "Order" of 2.9: the value before the window, the selector before both. -/
theorem test_dptEnc_order : errIs (exec (.dptEnc7 4 1 2) (st 16 [] [(1, 0x10000), (2, 15)])) 2 = true ∧
    errIs (exec (.dptEnc7 4 1 2) (st 16 [] [(1, 0x1234), (2, 15)])) 5 = true ∧
    errIs (exec (.dptEncOther 4 1 2 16) (st 16 [] [(2, 0x99)])) 3 = true := by decide

/-- DPT.DEC's setting in 2.9: octets at 8, x2 = 8, FLEN 16. -/
def dec (len : Word) (p : List Byte) : State := stAt 16 8 p [(2, 8), (3, len)]

theorem test_dptDec_octet : (xIs (exec (.dptDec1 5 2 3) (dec 1 [1])) 5 1 &&
    xIs (exec (.dptDec3 5 2 3) (dec 1 [0x0B])) 5 0xB && xIs (exec (.dptDec5 5 2 3) (dec 1 [0xFF])) 5 0xFF &&
    xIs (exec (.dptDec6 5 2 3) (dec 1 [0x80])) 5 0xFFFFFF80) = true := by decide
theorem test_dptDec_octet_range : errIs (exec (.dptDec1 5 2 3) (dec 1 [2])) 2 = true ∧
    errIs (exec (.dptDec3 5 2 3) (dec 1 [0x10])) 2 = true := by decide
theorem test_dptDec_two_octets : (xIs (exec (.dptDec7 5 2 3) (dec 2 [0xFF, 0xFF])) 5 0xFFFF &&
    xIs (exec (.dptDec8 5 2 3) (dec 2 [0x80, 0x00])) 5 0xFFFF8000 &&
    xIs (exec (.dptDec9 5 2 3) (dec 2 [0xA1, 0x5C])) 5 0xFFFF95C0) = true := by decide
theorem test_dptDec_triples : (xIs (exec (.dptDec10 5 2 3) (dec 3 [0x2E, 0x1E, 0x2D])) 5 0x0E1E2D &&
    xIs (exec (.dptDec11 5 2 3) (dec 3 [0x0F, 0x0B, 0x7E])) 5 0x0F0B7E &&
    errIs (exec (.dptDec11 5 2 3) (dec 3 [0x20, 0x01, 0x01])) 2 &&
    xIs (exec (.dptDec232 5 2 3) (dec 3 [0xFF, 0x80, 0x00])) 5 0xFF8000) = true := by decide
theorem test_dptDec_words : (xIs (exec (.dptDec12 5 2 3) (dec 4 [0xDE, 0xAD, 0xBE, 0xEF])) 5 0xDEADBEEF &&
    xIs (exec (.dptDec13 5 2 3) (dec 4 [0x80, 0, 0, 0])) 5 0x80000000 &&
    xIs (exec (.dptDec14 5 2 3) (dec 4 [0x7F, 0xC0, 0, 0])) 5 0x7FC00000) = true := by decide
theorem test_dptDec_length : errIs (exec (.dptDec7 5 2 3) (dec 1 [1, 2, 3])) 5 = true ∧
    errIs (exec (.dptDec7 5 2 3) (dec 3 [1, 2, 3])) 2 = true ∧
    errIs (exec (.dptDecOther 5 2 3 16) (dec 99 [])) 3 = true := by decide

/-! ### The host -/

/-- A word placed by `withFetchWord` is the next step's command. -/
theorem test_step_runs_word : xIs (step (State.reset.withFetchWord 32 0x01100012)) 1 0x12 = true := by decide
/-- 2.1: NOP with imm = 1. -/
theorem test_step_illegal : nextSat (step (State.reset.withFetchWord 32 0x00000001))
    (fun t => t.lasterr == 6 && t.faults == 0x40 && t.errcmd == 0x00000001) = true := by decide
/-- U11: a host write of FLEN above FB_BYTES is ignored. -/
theorem test_host_write_flen : nextSat (step { State.reset with host := [.writeCsr .flen 0x101] })
    (fun t => t.flen == 0 && t.lasterr == 0 && t.host == []) = true := by decide
theorem test_host_write_fb : nextSat (step { State.reset with host := [.writeFB 255 0xAB] })
    (fun t => t.fb == [(255, 0xAB)]) = true ∧
    nextSat (step { State.reset with host := [.writeFB 256 0xAB] }) (fun _ => true) = false := by decide
/-- R188's examples. -/
theorem test_parse_address : parseAddress "1/100".toList = .ok (.group2, [0x08, 0x64]) ∧
    parseAddress "1/2/3".toList = .ok (.group3, [0x0A, 0x03]) ∧
    parseAddress "99.0.0".toList = .error (.invalidAddress "99.0.0".toList) ∧
    parseAddress "1/2.3".toList = .error (.invalidAddress "1/2.3".toList) ∧
    parseAddress "1/10/3".toList = .error (.invalidAddress "1/10/3".toList) := by decide

/-! ### Witnesses: a state and operands that meet the hypotheses of each statement, clause by clause -/

/-- A state whose host has the actions. -/
def host (as : List HostAction) : State := { st 4 [1, 2, 3, 4] [(1, 0x7E), (2, 0x101)] with faults := 0x20, host := as }

theorem witness_DecodeOfEncodeIsIdentity :
    (Instr.bfSet 15 0 15 7 0).wf = true ∧ (Instr.dptEncOther 0 15 1 0xFF).wf = true ∧ (Instr.li 15 0xFF).wf = true := by
  decide
theorem witness_EncodeOfDecodeIsIdentity : decode 0x11312070 = .ok (.bfSet 3 1 2 7 0) := rfl
theorem witness_IllegalWordsRaiseIllegalCommand_host :
    (host [.issue 0x04000000, .reset]).host = .issue 0x04000000 :: [.reset] := rfl
theorem witness_IllegalWordsRaiseIllegalCommand_illegal :
    illegalWord 0x04000000 ∧ illegalWord 0xFF000000 ∧ illegalWord 0x00000001 ∧ illegalWord 0x10210034 ∧
    illegalWord 0x34210003 ∧ illegalWord 0x02100006 ∧ illegalWord 0x03010005 := by
  refine ⟨?_, ?_, ?_, ?_, ?_, ?_, ?_⟩ <;> unfold illegalWord undefinedOp <;> decide
theorem witness_IllegalWordsRaiseIllegalCommand_legal :
    ¬ illegalWord 0x00000000 ∧ ¬ illegalWord 0x10210077 ∧ ¬ illegalWord 0x61FFF0FF ∧ ¬ illegalWord 0x02F00005 ∧
    decode 0x00000000 = .ok .nop := by
  refine ⟨?_, ?_, ?_, ?_, rfl⟩ <;> unfold illegalWord undefinedOp <;> decide
theorem witness_StepRunsTheIssuedCommand :
    (host [.issue 0x01100012]).host = [.issue 0x01100012] ∧ decode 0x01100012 = .ok (.li 1 0x12) := ⟨rfl, rfl⟩
theorem witness_HostReadsAndWrites_registers :
    (host [.readReg 1]).host = [.readReg 1] ∧ (host [.readReg 1]).xWritten.get 1 = true ∧
    (host [.readReg 15]).host = [.readReg 15] ∧ (host [.readReg 15]).xWritten.get 15 = false := by decide
theorem witness_HostReadsAndWrites_buffer :
    (host [.writeFB 255 1]).host = [.writeFB 255 1] ∧ 255 < (host []).config.fbBytes ∧
    (host [.readFB 3]).host = [.readFB 3] ∧ (host []).fb.readByte 3 = some 4 := by decide
theorem witness_HostReadsAndWrites_csrs :
    (host [.writeCsr .flen 256]).host = [.writeCsr .flen 256] ∧ (256 : Word).toNat ≤ (host []).config.fbBytes ∧
    (host [.writeCsr .flen 257]).host = [.writeCsr .flen 257] ∧ (host []).config.fbBytes < (257 : Word).toNat ∧
    (host [.writeCsr .rlen 1]).host = [.writeCsr .rlen 1] ∧ (host [.readCsr .errcmd]).host = [.readCsr .errcmd] := by
  decide
theorem witness_HostResetClearsTheUnit : (host [.reset]).host = .reset :: [] := rfl

/-- The invariant of `host as`. -/
theorem unitInv_host (as : List HostAction) : UnitInv (host as) where
  config := by show Config.legal State.reset.config; decide
  lasterr := by show (0 : Word).toNat ≤ 6; decide
  faults := by show (0x20 : Word) &&& 0x7E#32 = 0x20; decide
  flen := by show (4 : Word).toNat ≤ 256; decide
  rkind := by show (0 : Word).toNat ≤ 4; decide
  rlen := by show (0 : Word).toNat ≤ 256; decide
  fbForm := by show Memory.wf (host []).fb; decide
  fbRange := by show ∀ c ∈ (host []).fb, c.1 < 256; decide

theorem witness_StepKeepsTheUnitInvariant :
    UnitInv (host [.issue 0x03010003]) ∧ ∃ t, step (host [.issue 0x03010003]) = .next t ∧ (t.flen == 0x7E) = true :=
  ⟨unitInv_host _, exists_next (by decide)⟩
theorem witness_StepKeepsTheParameters : ∃ t, step (host [.issue 0x0E012000, .reset]) = .next t ∧
    (t.host == [.reset]) = true := exists_next (by decide)
theorem witness_FailureWritesOnlyTheErrorRecord :
    (host [.issue 0x03020003, .issue 0]).host = .issue 0x03020003 :: [.issue 0] ∧ decode 0 = .ok .nop ∧
    ∃ t, step (host [.issue 0x03020003, .issue 0]) = .next t ∧ (t.lasterr != 0) = true :=
  ⟨rfl, rfl, exists_next (by decide)⟩

theorem not_raised {s t : State} {w : Word} (h : (t.lasterr == 0) = true) :
    ¬ ∃ k, 1 ≤ k ∧ k ≤ 6 ∧ t = raised s k w := by
  rintro ⟨k, h1, h6, rfl⟩
  interval_cases k <;> simp [raised] at h

theorem witness_SuccessClearsLasterrAndKeepsHistory (w : Word) (hw : w ∈ [0x03010001#32, 0x02A00000#32, 0x00000000#32]) :
    ∃ i t, (host [.issue w]).host = [.issue w] ∧ decode w = .ok i ∧ step (host [.issue w]) = .next t ∧
      ¬ ∃ k, 1 ≤ k ∧ k ≤ 6 ∧ t = raised { host [.issue w] with host := [] } k w := by
  simp only [List.mem_cons, List.not_mem_nil, or_false] at hw
  rcases hw with rfl | rfl | rfl
  · obtain ⟨t, h, h'⟩ := exists_next (o := step (host [.issue 0x03010001])) (p := fun t => t.lasterr == 0) (by decide)
    exact ⟨.csrwFaults 1, t, rfl, rfl, h, not_raised h'⟩
  · obtain ⟨t, h, h'⟩ := exists_next (o := step (host [.issue 0x02A00000])) (p := fun t => t.lasterr == 0) (by decide)
    exact ⟨.csrrLasterr 10, t, rfl, rfl, h, not_raised h'⟩
  · obtain ⟨t, h, h'⟩ := exists_next (o := step (host [.issue 0x00000000])) (p := fun t => t.lasterr == 0) (by decide)
    exact ⟨.nop, t, rfl, rfl, h, not_raised h'⟩

theorem witness_EachCommandRaisesOnlyItsErrors : (Instr.cfSft 3 1 2).wf = true ∧
    ∃ t, exec (.cfSft 3 1 2) (st 0 [] [(1, 0xFF), (2, 2)]) = .next t ∧ (t.lasterr == 3) = true :=
  ⟨rfl, exists_next (by decide)⟩
theorem witness_EveryCommandAnswersOnAWrittenWindow :
    ∀ a, a < (st 8 fb8 []).flen.toNat → (st 8 fb8 []).fb.readByte a ≠ none := by decide
theorem witness_RefusalNamesAnUnwrittenOctet :
    exec (.ldo 2 1 7) (st 8 [1] [(1, 0)]) = .refused (.unspecifiedOctet (.ldo 2 1 7) 7) := rfl
theorem witness_ResultDependsOnlyOnNamedInputs :
    sameInputs (.ldo 2 1 7) (st 8 fb8 [(1, 0), (2, 5)]) (st 8 (fb8 ++ [9]) [(1, 0), (3, 6)]) ∧
    (∃ t, exec (.ldo 2 1 7) (st 8 fb8 [(1, 0), (2, 5)]) = .next t ∧ (t.lasterr == 0) = true) ∧
    sameInputs (.ldo 2 1 7) (st 8 [] [(1, 0)]) (st 8 [] [(1, 0), (4, 1)]) ∧
    exec (.ldo 2 1 7) (st 8 [] [(1, 0)]) = .refused (.unspecifiedOctet (.ldo 2 1 7) 7) := by
  refine ⟨?_, exists_next (by decide), ?_, rfl⟩ <;> unfold sameInputs sameCsrs <;> decide

theorem witness_OnlyTheDestinationRegisterChanges : dest (.dptEnc12 4 1 2) = some 4 ∧ dest .nop ≠ some 0 ∧
    dest (.dptEnc12 4 1 2) ≠ some 1 ∧
    ∃ t, exec (.dptEnc12 4 1 2) (enc 5) = .next t ∧ (t.lasterr == 0) = true :=
  ⟨by decide, by decide, by decide, exists_next (by decide)⟩
theorem witness_CsrsChangeOnlyByTheirCommands : (∀ ra, Instr.apRd 5 1 2 3 ≠ .csrwFlen ra) ∧
    (∀ rd ra rb rc, Instr.csrwFlen 1 ≠ .apRd rd ra rb rc) ∧
    (∃ t, exec (.csrwFlen 1) (st 0 [] [(1, 256)]) = .next t ∧ (t.flen == 256) = true) ∧
    ∃ t, exec (.apRd 5 1 2 3) (st 0 [] [(1, 0), (2, 0), (3, 9)]) = .next t ∧ (t.rkind == 4) = true :=
  ⟨by simp, by simp, exists_next (by decide), exists_next (by decide)⟩
theorem witness_OtherCommandsKeepTheFrameBuffer : storesOctets (.ldo 2 1 7) = false ∧
    ∃ t, exec (.ldo 2 1 7) (st 8 fb8 [(1, 0)]) = .next t ∧ (t.x.get 2 == 0x88) = true :=
  ⟨rfl, exists_next (by decide)⟩
theorem witness_StoresKeepOtherOctets :
    (∃ t, exec (.sto 2 1 7) (st 8 fb8 [(1, 0), (2, 255)]) = .next t ∧ (t.lasterr == 0) = true) ∧
    (∃ t, exec (.st16 2 1 6) (st 8 fb8 [(1, 0), (2, 65535)]) = .next t ∧ (t.lasterr == 0) = true) ∧
    (∃ t, exec (.st32 2 1 4) (st 8 fb8 [(1, 0), (2, 65536)]) = .next t ∧ (t.lasterr == 0) = true) :=
  ⟨exists_next (by decide), exists_next (by decide), exists_next (by decide)⟩
theorem witness_ApWrKeepsOtherOctets :
    (∃ t, exec (.apWr 1 2 3) (payload [0x42, 0xC8, 0, 0]) = .next t ∧ (t.lasterr == 0) = true) ∧
    (payload [0x42, 0xC8, 0, 0]).fb.readOctets 16 4 = .ok [0x42, 0xC8, 0, 0] ∧
    (∃ t, exec (.apWr 1 2 3) (st 0 [] [(1, 0), (2, 1), (3, 0)]) = .next t ∧ (t.lasterr == 5) = true) ∧
    (∀ p, (st 0 [] [(1, 0), (2, 1), (3, 0)]).fb.readOctets 0 1 ≠ .ok p) :=
  ⟨exists_next (by decide), rfl, exists_next (by decide), fun _ h => by cases h⟩
theorem witness_DptEncKeepsOtherOctets (d : Dpt) :
    ∃ t, exec (encodeOf d 4 1 2) (enc 1) = .next t ∧ (t.lasterr == 0) = true := by
  cases d <;> exact exists_next (by decide)

theorem witness_CsrWriteFlenSetsTheWindow :
    ((st 0 [] [(1, 256)]).x.get 1).toNat ≤ (st 0 [] [(1, 256)]).config.fbBytes ∧
    (st 0 [] [(1, 257)]).config.fbBytes < ((st 0 [] [(1, 257)]).x.get 1).toNat := by decide
/-- The octets end at the end of the window. -/
theorem witness_LoadsAreBigEndian :
    (let s := st 8 fb8 [(1, 4)]
    holds s.fb ((s.x.get 1).toNat + (3 : Byte).toNat) [0x88] ∧ holds s.fb ((s.x.get 1).toNat + (2 : Byte).toNat) [0x77, 0x88] ∧
    holds s.fb ((s.x.get 1).toNat + (0 : Byte).toNat) [0x55, 0x66, 0x77, 0x88] ∧
    (s.x.get 1).toNat + (3 : Byte).toNat + 1 ≤ s.flen.toNat ∧ (s.x.get 1).toNat + (2 : Byte).toNat + 2 ≤ s.flen.toNat ∧
    (s.x.get 1).toNat + (0 : Byte).toNat + 4 ≤ s.flen.toNat) := by
  unfold holds; decide
theorem witness_AccessOutsideTheWindowRaises :
    (let s := st 8 fb8 [(1, 5), (2, 255), (3, 65535)]
    s.flen.toNat < (s.x.get 1).toNat + (3 : Byte).toNat + 1 ∧ s.flen.toNat < (s.x.get 1).toNat + (2 : Byte).toNat + 2 ∧
    s.flen.toNat < (s.x.get 1).toNat + (0 : Byte).toNat + 4 ∧ (s.x.get 2).toNat < 256 ∧ (s.x.get 3).toNat < 65536) := by
  decide
theorem witness_StoresAreBigEndian :
    (let s := st 8 fb8 [(1, 4), (2, 255), (3, 65535)]
    (s.x.get 1).toNat + (3 : Byte).toNat + 1 ≤ s.flen.toNat ∧ (s.x.get 1).toNat + (2 : Byte).toNat + 2 ≤ s.flen.toNat ∧
    (s.x.get 1).toNat + (0 : Byte).toNat + 4 ≤ s.flen.toNat ∧ (s.x.get 2).toNat < 256 ∧ (s.x.get 3).toNat < 65536) := by
  decide
theorem witness_TooWideStoreValuesRaise :
    256 ≤ ((st 0 [] [(2, 256)]).x.get 2).toNat ∧ 65536 ≤ ((st 0 [] [(2, 65536)]).x.get 2).toNat := by decide

theorem witness_BitFieldGetResult : (4 : Fin 8) ≤ 4 ∧ ((st 0 [] [(1, 255)]).x.get 1).toNat < 256 ∧
    256 ≤ ((st 0 [] [(1, 256)]).x.get 1).toNat := by decide
theorem witness_BitFieldSetResult :
    (let s := st 0 [] [(1, 255), (2, 3), (3, 4), (4, 256)]
    (1 : Fin 8) ≤ 2 ∧ (s.x.get 1).toNat < 256 ∧ (s.x.get 2).toNat < 2 ^ ((2 : Fin 8).val - (1 : Fin 8).val + 1) ∧
    2 ^ ((2 : Fin 8).val - (1 : Fin 8).val + 1) ≤ (s.x.get 3).toNat ∧ 256 ≤ (s.x.get 4).toNat) := by decide
theorem witness_BitFieldLaws : 255 < 256 ∧ 3 ≤ 6 ∧ 6 ≤ 7 ∧ 15 < 2 ^ (6 - 3 + 1) ∧
    ((2 < 3 ∨ 6 < 0) ∧ (7 < 3 ∨ 6 < 7)) := by decide
theorem witness_ControlFieldGetterResults : ((st 0 [] [(1, 255)]).x.get 1).toNat < 256 ∧
    256 ≤ ((st 0 [] [(1, 256)]).x.get 1).toNat := by decide
/-- The largest legal value and the one above it, for each setter. -/
theorem witness_ControlFieldSetterResults (g : (Reg → Reg → Reg → Instr) × Nat × Nat × Nat × Nat) (hg : g ∈ cfSetters) :
    (let s := st 0 [] [(1, 255), (2, BitVec.ofNat 32 g.2.2.2.1), (3, BitVec.ofNat 32 (g.2.2.2.1 + 1)), (4, 256)]
    (s.x.get 1).toNat < 256 ∧ (s.x.get 2).toNat ≤ g.2.2.2.1 ∧ g.2.2.2.1 < (s.x.get 3).toNat ∧ 256 ≤ (s.x.get 4).toNat) := by
  simp only [cfSetters, List.mem_cons, List.not_mem_nil, or_false] at hg
  rcases hg with rfl | rfl | rfl | rfl <;> decide
theorem witness_ControlFieldIsolation (g : (Reg → Reg → Reg → Instr) × Nat × Nat × Nat × Nat) (hg : g ∈ cfSetters) :
    (let s := st 0 [] [(1, 255), (2, BitVec.ofNat 32 g.2.2.2.1)]
    (s.x.get 1).toNat < 256 ∧ (s.x.get 2).toNat ≤ g.2.2.2.1 ∧ ∃ t, exec (g.1 3 1 2) s = .next t ∧ (t.lasterr == 0) = true) := by
  simp only [cfSetters, List.mem_cons, List.not_mem_nil, or_false] at hg
  rcases hg with rfl | rfl | rfl | rfl <;> exact ⟨by decide, by decide, exists_next (by decide)⟩
theorem witness_ExtControlFieldGetterResults : ((st 0 [] [(1, 255)]).x.get 1).toNat < 256 ∧
    256 ≤ ((st 0 [] [(1, 256)]).x.get 1).toNat := by decide
theorem witness_ExtControlFieldSetterResults (g : (Reg → Reg → Reg → Instr) × Nat × Nat × Nat × Nat)
    (hg : g ∈ ecfSetters) :
    (let s := st 0 [] [(1, 255), (2, BitVec.ofNat 32 g.2.2.2.1), (3, BitVec.ofNat 32 (g.2.2.2.1 + 1)), (4, 256)]
    (s.x.get 1).toNat < 256 ∧ (s.x.get 2).toNat ≤ g.2.2.2.1 ∧ g.2.2.2.1 < (s.x.get 3).toNat ∧ 256 ≤ (s.x.get 4).toNat ∧
    ∃ t, exec (g.1 5 1 2) s = .next t ∧ (t.lasterr == 0) = true) := by
  simp only [ecfSetters, List.mem_cons, List.not_mem_nil, or_false] at hg
  rcases hg with rfl | rfl | rfl <;> exact ⟨by decide, by decide, by decide, by decide, exists_next (by decide)⟩
theorem witness_HopCountRoundTrip :
    (let s := st 0 [] [(1, 0x06), (2, 15), (3, 16), (4, 0xFFFFFFFF), (5, 3)]
    (s.x.get 1).toNat < 256 ∧ (s.x.get 2).toNat ≤ 15 ∧ s.x.get 3 = 16 ∧ s.x.get 4 = 0xFFFFFFFF ∧ (s.x.get 5).toNat ≤ 3 ∧
    (∃ t, exec (.ecfShc 6 1 2) s = .next t ∧ (t.x.get 2 == s.x.get 2) = true) ∧
    (∃ t, exec (.bfSet 6 1 5 2 1) s = .next t ∧ (t.lasterr == 0) = true)) :=
  ⟨by decide, by decide, by decide, by decide, by decide, exists_next (by decide), exists_next (by decide)⟩

/-- The largest parts of each kind, and one above. -/
theorem witness_AddressPackResults :
    (let s := st 0 [] [(1, 15), (2, 31), (3, 7), (4, 255), (5, 2047), (6, 16), (7, 32), (8, 8), (9, 256), (10, 2048)]
    (s.x.get 1).toNat ≤ 15 ∧ (s.x.get 2).toNat ≤ 31 ∧ (s.x.get 3).toNat ≤ 7 ∧ (s.x.get 4).toNat ≤ 255 ∧
    (s.x.get 5).toNat ≤ 2047 ∧ 15 < (s.x.get 6).toNat ∧ 31 < (s.x.get 7).toNat ∧ 7 < (s.x.get 8).toNat ∧
    255 < (s.x.get 9).toNat ∧ 2047 < (s.x.get 10).toNat) := by decide
theorem witness_AddressPartResults : ((st 0 [] [(1, 65535)]).x.get 1).toNat < 65536 ∧
    65536 ≤ ((st 0 [] [(1, 65536)]).x.get 1).toNat := by decide
theorem witness_AddressPackAndGetAreInverse_parts :
    (let s := st 0 [] [(1, 15), (2, 31), (3, 7), (4, 255), (5, 2047)]
    (∃ t, exec (.adPki 6 1 1 4) s = .next t ∧ (t.lasterr == 0) = true) ∧
    (∃ t, exec (.adPk2 6 2 5) s = .next t ∧ (t.lasterr == 0) = true) ∧
    (∃ t, exec (.adPk3 6 2 3 4) s = .next t ∧ (t.lasterr == 0) = true)) :=
  ⟨exists_next (by decide), exists_next (by decide), exists_next (by decide)⟩
theorem witness_AddressPackAndGetAreInverse_value :
    (let s := st 0 [] [(1, 65535)]
    ([1, 2, 3, 4] : List Reg).Nodup ∧ (s.x.get 1).toNat < 65536 ∧
    (∃ s1, exec (.adGetIndArea 2 1) s = .next s1 ∧
      (nextSat (exec (.adGetIndLine 3 1) s1) fun s2 => okIs (exec (.adGetIndDev 4 1) s2)) = true) ∧
    (∃ s1, exec (.adGetG2Main 2 1) s = .next s1 ∧ okIs (exec (.adGetG2Sub 3 1) s1) = true) ∧
    (∃ s1, exec (.adGetG3Main 2 1) s = .next s1 ∧
      (nextSat (exec (.adGetG3Mid 3 1) s1) fun s2 => okIs (exec (.adGetG3Sub 4 1) s2)) = true)) :=
  ⟨by decide, by decide, exists_next (by decide), exists_next (by decide), exists_next (by decide)⟩
theorem witness_AddressPackAndGetAreInverse_numbers :
    packIndividual 15 15 255 = .ok 0xFFFF ∧ packGroup2 31 2047 = .ok 0xFFFF ∧ packGroup3 31 7 255 = .ok 0xFFFF := ⟨rfl, rfl, rfl⟩

theorem witness_ApduLengthClassResult :
    (let s := payload [0x3E]
    (s.x.get 1).toNat + (s.x.get 2).toNat ≤ s.flen.toNat ∧ 1 ≤ (s.x.get 2).toNat ∧
    s.fb.readByte (s.x.get 1).toNat = some 0x3E ∧ lengthClassIs (s.x.get 2).toNat (0x3E : Byte).toNat 1 ∧
    (st 24 [] [(1, 25), (2, 0)]).flen.toNat < ((st 24 [] [(1, 25), (2, 0)]).x.get 1).toNat + 0) := by
  unfold lengthClassIs; decide
/-- One class of each clause, at the threshold. -/
theorem witness_lengthClassIs : lengthClassIs 0 0 0 ∧ lengthClassIs 1 0x3E 1 ∧ lengthClassIs 1 0x3F 2 ∧ lengthClassIs 4 0 3 ∧
    lengthClassIs 2 0x3E 2 ∧ lengthClassIs 5 0x3F 6 := by
  refine ⟨?_, ?_, ?_, ?_, ?_, ?_⟩ <;> unfold lengthClassIs <;> decide
theorem witness_ApWrShortPayloads :
    (let s := st 24 (List.replicate 24 0x3E) [(1, 24), (2, 0), (3, 1), (4, 23), (5, 22)]
    let u := st 24 (List.replicate 24 0x3F) [(1, 23), (3, 1), (5, 22)]
    s.x.get 2 = 0 ∧ (s.x.get 1).toNat ≤ s.flen.toNat ∧
    s.x.get 3 = 1 ∧ (s.x.get 4).toNat + 1 ≤ s.flen.toNat ∧ s.fb.readByte (s.x.get 4).toNat = some 0x3E ∧
    (0x3E : Byte).toNat < 0x3F ∧
    u.x.get 3 = 1 ∧ (u.x.get 1).toNat + 1 ≤ u.flen.toNat ∧ u.fb.readByte (u.x.get 1).toNat = some 0x3F ∧
    0x3F ≤ (0x3F : Byte).toNat ∧ (u.x.get 5).toNat + 2 ≤ u.flen.toNat) := by decide
/-- 2.7: three packed octets at 21 and three unpacked at 20, FLEN 24. -/
theorem witness_ApWrCopiesLongPayloads :
    (let s := stAt 24 16 [0x3E, 0x02, 0x03] [(1, 16), (2, 3), (3, 21), (4, 20)]
    let u := stAt 24 16 [0x3F, 0x02, 0x03] [(1, 16), (2, 3), (3, 21), (4, 20)]
    [0x3E, 0x02, (0x03 : Byte)].length = (s.x.get 2).toNat ∧ (s.x.get 1).toNat + 3 ≤ s.flen.toNat ∧
    holds s.fb (s.x.get 1).toNat [0x3E, 0x02, 0x03] ∧ holds u.fb (u.x.get 1).toNat [0x3F, 0x02, 0x03] ∧
    (s.x.get 3).toNat + 3 ≤ s.flen.toNat ∧ (u.x.get 4).toNat + 1 + 3 ≤ u.flen.toNat) := by
  unfold holds; decide

/-- S9: 100.0 is the word 1CE2. -/
theorem d9Encodes_100 : d9Encodes .nearestAway (100 * f32Value (0x42#8 ++ 0xC8#8 ++ 0x00#8 ++ 0x00#8).toNat) 0x1CE2 := by
  have hv : (100 : ℚ) * f32Value (0x42#8 ++ 0xC8#8 ++ 0x00#8 ++ 0x00#8).toNat = 10000 := by
    have hb : (0x42#8 ++ 0xC8#8 ++ 0x00#8 ++ 0x00#8).toNat = 0x42C80000 := by decide
    rw [hb]; norm_num [f32Value]
  rw [hv]
  refine ⟨3, 1250, by norm_num, by norm_num [d9FitsAt], ?_, by norm_num [roundsTo], by decide⟩
  intro E hE
  interval_cases E <;> norm_num [d9FitsAt]

theorem witness_ApWrConvertsFloats :
    (let s := stAt 24 16 [0x42, 0xC8, 0x00, 0x00] [(1, 16), (2, 4), (3, 21)]
    s.x.get 2 = 4 ∧ (s.x.get 1).toNat + 4 ≤ s.flen.toNat ∧ holds s.fb (s.x.get 1).toNat [0x42, 0xC8, 0x00, 0x00] ∧
    ¬ f32Infinite (0x42#8 ++ 0xC8#8 ++ 0x00#8 ++ 0x00#8).toNat ∧
    d9Encodes s.config.d9Round (100 * f32Value (0x42#8 ++ 0xC8#8 ++ 0x00#8 ++ 0x00#8).toNat) 0x1CE2 ∧
    (s.x.get 3).toNat + 3 ≤ s.flen.toNat) :=
  ⟨by decide, by decide, by unfold holds; decide, by unfold f32Infinite; decide, d9Encodes_100, by decide⟩
/-- 2.7's order checks: an infinity, one binary32 step above the range, 100.0 at 22, one octet of each kind at 24 and 23. -/
theorem witness_ApWrErrorsInOrder :
    (let s := stAt 24 16 [0x42, 0xC8, 0x00, 0x00] [(1, 16), (2, 4), (3, 22), (4, 21)]
    (s.x.get 1).toNat + (s.x.get 2).toNat ≤ s.flen.toNat ∧ s.flen.toNat < (s.x.get 4).toNat + (s.x.get 2).toNat ∧
    holds s.fb (s.x.get 1).toNat [0x42, 0xC8, 0x00, 0x00] ∧ s.flen.toNat < (s.x.get 3).toNat + 3 ∧
    f32Infinite (0x7F#8 ++ 0x80#8 ++ 0x00#8 ++ 0x00#8).toNat ∧
    ¬ f32Infinite (0x49#8 ++ 0x23#8 ++ 0xC2#8 ++ 0x90#8).toNat) := by
  unfold holds f32Infinite; decide
theorem witness_ApWrErrorsInOrder_range :
    ¬ d9InRange (100 * f32Value (0x49#8 ++ 0x23#8 ++ 0xC2#8 ++ 0x90#8).toNat) ∧
    d9InRange (100 * f32Value (0x42#8 ++ 0xC8#8 ++ 0x00#8 ++ 0x00#8).toNat) := by
  have h1 : (0x49#8 ++ 0x23#8 ++ 0xC2#8 ++ 0x90#8).toNat = 0x4923C290 := by decide
  have h2 : (0x42#8 ++ 0xC8#8 ++ 0x00#8 ++ 0x00#8).toNat = 0x42C80000 := by decide
  rw [h1, h2]; norm_num [d9InRange, f32Value]
theorem witness_ApWrErrorsInOrder_copies :
    (let s := st 24 (List.replicate 24 0x3E) [(1, 16), (2, 3), (3, 22)]
    let u := st 24 (List.replicate 24 0x3F) [(1, 16), (2, 1), (3, 23)]
    (s.x.get 1).toNat + 3 ≤ s.flen.toNat ∧ holds s.fb 16 [0x3E, 0x3E, 0x3E] ∧ s.flen.toNat < (s.x.get 3).toNat + 3 ∧
    (u.x.get 1).toNat + 1 ≤ u.flen.toNat ∧ holds u.fb 16 [0x3F] ∧ u.flen.toNat < (u.x.get 3).toNat + 1 + 1) := by
  unfold holds; decide
/-- The shortest APDU of each class, and one shorter. -/
theorem witness_ApRdResultsByClass :
    (let s := st 4 [0x00, 0x80, 0x1C, 0xE2] [(0, 0), (1, 1), (2, 2), (3, 3), (4, 4)]
    (s.x.get 0).toNat + (s.x.get 4).toNat ≤ s.flen.toNat ∧ (s.x.get 0).toNat = 0 ∧ (s.x.get 1).toNat = 1 ∧
    2 ≤ (s.x.get 2).toNat ∧ 3 ≤ (s.x.get 3).toNat ∧ 4 ≤ (s.x.get 4).toNat ∧ s.fb.readByte 1 = some 0x80 ∧
    s.fb.readByte 2 = some 0x1C ∧ holds s.fb (0 + 2) [0x1C, 0xE2] ∧
    s.flen.toNat < (s.x.get 1).toNat + (s.x.get 4).toNat ∧ (s.x.get 1).toNat < (s.x.get 1).toNat + 1) := by
  unfold holds; decide
/-- 3E is packed and 3F is not. -/
theorem witness_SingleOctetApduRoundTrip :
    (let s := payload [0x3E]
    let v := payload [0x3F]
    s.x.get 2 = 1 ∧ s.fb.readByte (s.reg 1) = some 0x3E ∧ s.fb.readByte (s.reg 3) = some 0x80 ∧ (0x80 : Byte) &&& 0x3F = 0 ∧
    (∃ t, exec (.apWr 1 2 3) s = .next t ∧ (t.lasterr == 0) = true) ∧
    v.fb.readByte (v.reg 1) = some 0x3F ∧ (∃ t, exec (.apWr 1 2 3) v = .next t ∧ (t.lasterr == 0) = true)) :=
  ⟨by decide, by decide, by decide, by decide, exists_next (by decide), by decide, exists_next (by decide)⟩
theorem witness_SingleOctetApduRoundTrip_read : lengthClassIs 1 (0x3E : Byte).toNat 1 ∧
    ∃ t, exec (.apWr 1 2 3) (payload [0x3E]) = .next t ∧
      (let u := { st 24 [] [(4, 0), (5, 2), (6, 1)] with fb := t.fb }
      t.lasterr == 0 && u.fb == t.fb && u.flen == t.flen && u.reg 4 + 1 == (payload [0x3E]).reg 3 && u.reg 6 == 1 &&
        decide (1 + 1 ≤ u.reg 5) && decide (u.reg 4 + u.reg 5 ≤ u.flen.toNat)) = true :=
  ⟨by unfold lengthClassIs; decide, exists_next (by decide)⟩

theorem witness_D9DecodeFollowsTheFormula : 65535 < 65536 ∧ 15 < 16 ∧ ((st 0 [] [(1, 65535)]).x.get 1).toNat < 65536 ∧
    65536 ≤ ((st 0 [] [(1, 65536)]).x.get 1).toNat := by decide
/-- The largest and smallest centi values and one beyond each. -/
theorem witness_D9EncodesCentiValues :
    (let s := st 0 [] [(1, 67076096), (2, 0xFC000000), (3, 67076097), (4, 0xFBFFFFFF)]
    (-67108864 ≤ (s.x.get 1).toInt ∧ (s.x.get 1).toInt ≤ 67076096) ∧
    (-67108864 ≤ (s.x.get 2).toInt ∧ (s.x.get 2).toInt ≤ 67076096) ∧ 67076096 < (s.x.get 3).toInt ∧
    (s.x.get 4).toInt < -67108864) := by decide
theorem witness_D9EncodesBinary32 : f32Infinite 0x7F800000 ∧ ¬ f32Infinite 0x7F7FFFFF ∧
    d9InRange (100 * f32Value 0x4923C28F) ∧ ¬ d9InRange (100 * f32Value 0x4923C290) := by
  refine ⟨by norm_num [f32Infinite], by norm_num [f32Infinite], ?_, ?_⟩ <;> norm_num [d9InRange, f32Value]
theorem witness_D9RoundTripIsCanonical : ((st 0 [] [(1, 65535)]).x.get 1).toNat < 65536 ∧ d9Canonical 0x7FFF ∧
    ¬ d9Canonical 0xFFFF := by unfold d9Canonical; decide
theorem witness_D9EncodingIsCloseAndMonotonic : Rounding.nearestEven ≠ .towardZero ∧ 0 < 1 ∧
    -67108864 * ((1 : Nat) : Int) ≤ 4094 ∧ 4094 ≤ 67076096 * ((1 : Nat) : Int) ∧
    (4094 : Int) * ((1 : Nat) : Int) ≤ 4095 * ((1 : Nat) : Int) ∧
    (d9Encode .nearestEven 4094 1).toOption = some 0x0FFF ∧ (d9Encode .nearestEven 4095 1).toOption = some 0x1400 := by
  decide

theorem d9Encodes_1 : d9Encodes .nearestAway ((1 : Int) : ℚ) 1 :=
  ⟨0, 1, by norm_num, by norm_num [d9FitsAt], by omega, by norm_num [roundsTo], by decide⟩

/-- The value 1 under every selector, stored at the end of the window. -/
theorem witness_DptEncodeResults (d : Dpt) :
    (∃ o, encodesAs .nearestAway 1 o d) ∧
    ((st 16 [] [(2, BitVec.ofNat 32 (16 - widthOf d))]).x.get 2).toNat + widthOf d ≤ (st 16 [] []).flen.toNat := by
  constructor
  · cases d <;> refine ⟨1, ?_⟩ <;> first
      | exact d9Encodes_1
      | (simp only [encodesAs, isDate, maskedTime]; decide)
  · cases d <;> decide
/-- The number 1 under every selector. -/
theorem witness_DptDecodeResults (d : Dpt) :
    (1 < 256 ^ widthOf d ∧ decodesAs 1 1 d) ∧
    (let s := st 4 (octets (widthOf d) 1) [(2, 0), (3, BitVec.ofNat 32 (widthOf d))]
    holds s.fb (s.x.get 2).toNat (octets (widthOf d) 1) ∧ (s.x.get 3).toNat = widthOf d ∧
    (s.x.get 2).toNat + widthOf d ≤ s.flen.toNat) := by
  refine ⟨?_, ?_⟩
  · cases d <;> (simp only [decodesAs, isDate, maskedTime, d9Value, widthOf]; decide)
  · cases d <;> (unfold holds; decide)
theorem witness_DptErrorsInOrder_values :
    (∀ o, ¬ encodesAs .nearestAway 2 o .bool) ∧ (∀ o, ¬ encodesAs .nearestAway 0x80 o .signed8) ∧
    (∀ v, ¬ decodesAs 2 v .bool) ∧ (∀ v, ¬ decodesAs 0x200000 v .date) := by
  exact ⟨fun o h => absurd h.1 (by decide), fun o h => absurd h.2.1 (by decide), fun v h => absurd h.1 (by decide),
    fun v h => absurd h.1.1 (by decide)⟩
theorem witness_DptErrorsInOrder_window :
    (let s := st 16 [] [(1, 0x1234), (2, 15), (3, 2), (4, 1), (5, 3), (6, 8)]
    encodesAs .nearestAway (s.x.get 1) 0x1234 .unsigned16 ∧ s.flen.toNat < (s.x.get 2).toNat + widthOf .unsigned16 ∧
    s.flen.toNat < (s.x.get 2).toNat + (s.x.get 3).toNat ∧ (s.x.get 4).toNat < widthOf .unsigned16 ∧
    (s.x.get 6).toNat + (s.x.get 5).toNat ≤ s.flen.toNat ∧ widthOf .unsigned16 < (s.x.get 5).toNat) := by
  simp only [encodesAs]; decide
theorem witness_DptErrorsInOrder_octets :
    (let s := dec 3 [0x20, 0x01, 0x01]
    (s.x.get 2).toNat + (s.x.get 3).toNat ≤ s.flen.toNat ∧ (s.x.get 3).toNat = widthOf .date ∧
    0x200101 < 256 ^ widthOf .date ∧ holds s.fb (s.x.get 2).toNat (octets (widthOf .date) 0x200101) ∧
    ∀ v, ¬ decodesAs 0x200101 v .date) :=
  ⟨by decide, by decide, by decide, by unfold holds; decide, fun v h => absurd h.1.1 (by decide)⟩
/-- Selector 10 at its largest unmasked value, both ways. -/
theorem witness_DptEncodeAndDecodeAreInverse : Dpt.time ≠ .float16 ∧ (0x1F3F3F : Word) &&& 0x1F3F3F = 0x1F3F3F ∧
    (∃ t, exec (.dptEnc10 4 1 2) (enc 0x1F3F3F) = .next t ∧
      (let u := { st 16 [] [(6, 8), (7, 3)] with fb := t.fb }
      t.lasterr == 0 && u.flen == (enc 0x1F3F3F).flen && u.fb == t.fb && u.x.get 6 == (enc 0x1F3F3F).x.get 2 &&
        (u.x.get 7).toNat == widthOf .time) = true) ∧
    (∃ t, exec (.dptDec10 5 2 3) (dec 3 [0x1F, 0x3F, 0x3F]) = .next t ∧
      (let u := st 16 [] [(6, 0x1F3F3F), (7, 8)]
      t.lasterr == 0 && u.flen == (dec 3 []).flen && u.x.get 6 == t.x.get 5 && u.x.get 7 == (dec 3 []).x.get 2) = true) ∧
    (∀ o0 o1 o2 : Byte, holds (dec 3 [0x1F, 0x3F, 0x3F]).fb 8 [o0, o1, o2] → o0.toNat < 32 ∧ o1.toNat < 64 ∧ o2.toNat < 64) := by
  refine ⟨by decide, by decide, exists_next (by decide), exists_next (by decide), fun o0 o1 o2 h => ?_⟩
  have h0 : some (0x1F : Byte) = some o0 := h 0 (by simp)
  have h1 : some (0x3F : Byte) = some o1 := h 1 (by simp)
  have h2 : some (0x3F : Byte) = some o2 := h 2 (by simp)
  simp only [Option.some.injEq] at h0 h1 h2
  subst h0; subst h1; subst h2; decide
theorem witness_UnknownSelectorsRaiseUnsupportedType :
    (host [.issue 0x60412010]).host = [.issue 0x60412010] ∧ (0x60412010 : Word).toNat / 2 ^ 24 = 0x60 ∧
    (0x61FFF000 : Word).toNat / 2 ^ 24 = 0x61 ∧ (0x60412010 : Word).toNat / 256 % 16 = 0 ∧
    (0x60412010 : Word).toNat % 256 ∉ [1, 3, 5, 6, 7, 8, 9, 10, 11, 12, 13, 14, 232] := by decide
theorem witness_AddressTextRoundTrip :
    parseAddress "31/7/255".toList = .ok (.group3, [0xFF, 0xFF]) ∧
    parseAddress "1..3".toList = .error (.invalidAddress "1..3".toList) ∧ [(0x12 : Byte)].length < 2 := by decide

end Sys2Proof.Tests
end

section
/-! SUPPORT. The body of each command: the pseudocode that its meaning hands to `finish`, in the shared forms of the
families, and what such a body can do. -/

namespace Sys2Proof.Machine

open Sys2Proof.Claims

/-! ### The bodies of the commands -/

/-- `b`, a function of the state, has one of the forms that the body of the command `i` can have: one constructor per
shared form, with the registers it reads and writes. -/
inductive BodyForm : Instr → (State → Except Stop State) → Prop
  | nop : BodyForm .nop .ok
  | loadImmediate (rd : Reg) (imm : Byte) : BodyForm (.li rd imm) fun s => .ok (s.setNat rd imm.toNat)
  | readCsr {i : Instr} {n : Csr} {rd : Reg} : dest i = some rd → BodyForm i (csrrBody n rd)
  | clearFaults (ra : Reg) :
      BodyForm (.csrwFaults ra) fun s => .ok { s with faults := clearFaults s.faults (s.x.get ra) }
  | setFlen (ra : Reg) :
      BodyForm (.csrwFlen ra) fun s => do
        let _ ← atMost s.config.fbBytes .rangeError (s.reg ra)
        return { s with flen := s.x.get ra }
  | load {i : Instr} {n : Nat} {rd ra : Reg} {imm : Byte} :
      dest i = some rd → sources i = [ra] → BodyForm i (loadBody n rd ra imm)
  | store {i : Instr} {n : Nat} {carrier : Nat → Except Stop Nat} {rb ra : Reg} {imm : Byte} :
      storesOctets i = true → dest i = none → sources i = [rb, ra] →
      (∀ v a, carrier v ≠ .error (.unspecified a)) → BodyForm i (storeBody n carrier rb ra imm)
  | getField {i : Instr} {hi lo : Nat} {rd ra : Reg} :
      dest i = some rd → sources i = [ra] → BodyForm i (getFieldBody hi lo rd ra)
  | getRange (rd ra : Reg) (hi lo : Fin 8) :
      BodyForm (.bfGet rd ra hi lo) fun s => do
        checkRange hi lo
        getFieldBody hi.val lo.val rd ra s
  | setField {i : Instr} {hi lo bound : Nat} {e : ErrorKind} {rd ra rb : Reg} :
      dest i = some rd → sources i = [ra, rb] → BodyForm i (setFieldBody hi lo bound e rd ra rb)
  | setRange (rd ra rb : Reg) (hi lo : Fin 8) :
      BodyForm (.bfSet rd ra rb hi lo) fun s => do
        checkRange hi lo
        setFieldBody hi.val lo.val (2 ^ bfWidth hi.val lo.val - 1) .rangeError rd ra rb s
  | packIndividual (rd ra rb rc : Reg) :
      BodyForm (.adPki rd ra rb rc) fun s => do
        let v ← packIndividual (s.reg ra) (s.reg rb) (s.reg rc)
        return s.setNat rd v
  | packGroup2 (rd ra rb : Reg) :
      BodyForm (.adPk2 rd ra rb) fun s => do
        let v ← packGroup2 (s.reg ra) (s.reg rb)
        return s.setNat rd v
  | packGroup3 (rd ra rb rc : Reg) :
      BodyForm (.adPk3 rd ra rb rc) fun s => do
        let v ← packGroup3 (s.reg ra) (s.reg rb) (s.reg rc)
        return s.setNat rd v
  | addressPart {i : Instr} {hi lo : Nat} {rd ra : Reg} :
      dest i = some rd → sources i = [ra] → BodyForm i (addressPartBody hi lo rd ra)
  | apduLength (rd ra rb : Reg) :
      BodyForm (.apDlen rd ra rb) fun s => do
        checkWindow s (s.reg ra) (s.reg rb)
        let p0 ← if 1 ≤ s.reg rb then memRead s (s.reg ra) 1 else .ok 0
        return s.setNat rd (dataLength (s.reg rb) p0)
  | apduWrite (ra rb rc : Reg) : BodyForm (.apWr ra rb rc) (apWrBody ra rb rc)
  | apduRead (rd ra rb rc : Reg) : BodyForm (.apRd rd ra rb rc) (apRdBody rd ra rb rc)
  | d9Decode (rd ra : Reg) :
      BodyForm (.d9Dec rd ra) fun s => do
        let w ← u16 (s.reg ra)
        return s.setInt rd (d9Decode w)
  | d9EncodeF32 (rd ra : Reg) :
      BodyForm (.d9Encf rd ra) fun s => do
        let w ← d9EncodeF32 s.config.d9Round (s.reg ra)
        return s.setNat rd w
  | d9EncodeCenti (rd ra : Reg) :
      BodyForm (.d9Encc rd ra) fun s => do
        let w ← d9Encode s.config.d9Round (toS32 (s.reg ra)) 1
        return s.setNat rd w
  | dptEncode {i : Instr} {d : Dpt} {rd ra rb : Reg} :
      storesOctets i = true → dest i = some rd → sources i = [ra, rb] → BodyForm i (dptEncBody d rd ra rb)
  | dptDecode {i : Instr} {d : Dpt} {rd ra rb : Reg} :
      dest i = some rd → sources i = [ra, rb] → BodyForm i (dptDecBody d rd ra rb)
  | unknownSelector {i : Instr} : dest i = none → sources i = [] → BodyForm i fun _ => raise .unsupportedType

/-- A carrier check raises, if anything: it does not read the frame buffer. -/
theorem oct_ne_unspecified (v a : Nat) : oct v ≠ .error (.unspecified a) := by
  unfold oct; split <;> simp

theorem u16_ne_unspecified (v a : Nat) : u16 v ≠ .error (.unspecified a) := by
  unfold u16; split <;> simp

/-- Every command ends by `finish` from its body. -/
theorem exec_bodyForm (i : Instr) : ∃ b, BodyForm i b ∧ ∀ s, exec i s = finish i s (b s) := by
  cases i
  case nop => exact ⟨_, .nop, fun _ => rfl⟩
  case li rd imm => exact ⟨_, .loadImmediate rd imm, fun _ => rfl⟩
  case csrrLasterr rd => exact ⟨csrrBody .lasterr rd, .readCsr rfl, fun _ => rfl⟩
  case csrrFaults rd => exact ⟨csrrBody .faults rd, .readCsr rfl, fun _ => rfl⟩
  case csrrErrcmd rd => exact ⟨csrrBody .errcmd rd, .readCsr rfl, fun _ => rfl⟩
  case csrrFlen rd => exact ⟨csrrBody .flen rd, .readCsr rfl, fun _ => rfl⟩
  case csrrRkind rd => exact ⟨csrrBody .rkind rd, .readCsr rfl, fun _ => rfl⟩
  case csrrRlen rd => exact ⟨csrrBody .rlen rd, .readCsr rfl, fun _ => rfl⟩
  case csrwFaults ra => exact ⟨_, .clearFaults ra, fun _ => rfl⟩
  case csrwFlen ra => exact ⟨_, .setFlen ra, fun _ => rfl⟩
  case sto => exact ⟨_, .store rfl rfl rfl oct_ne_unspecified, fun _ => rfl⟩
  case st16 => exact ⟨_, .store rfl rfl rfl u16_ne_unspecified, fun _ => rfl⟩
  case st32 => exact ⟨_, .store rfl rfl rfl (by simp), fun _ => rfl⟩
  case bfGet rd ra hi lo => exact ⟨_, .getRange rd ra hi lo, fun _ => rfl⟩
  case bfSet rd ra rb hi lo => exact ⟨_, .setRange rd ra rb hi lo, fun _ => rfl⟩
  case adPki rd ra rb rc => exact ⟨_, .packIndividual rd ra rb rc, fun _ => rfl⟩
  case adPk2 rd ra rb => exact ⟨_, .packGroup2 rd ra rb, fun _ => rfl⟩
  case adPk3 rd ra rb rc => exact ⟨_, .packGroup3 rd ra rb rc, fun _ => rfl⟩
  case apDlen rd ra rb => exact ⟨_, .apduLength rd ra rb, fun _ => rfl⟩
  case apWr ra rb rc => exact ⟨_, .apduWrite ra rb rc, fun _ => rfl⟩
  case apRd rd ra rb rc => exact ⟨_, .apduRead rd ra rb rc, fun _ => rfl⟩
  case d9Dec rd ra => exact ⟨_, .d9Decode rd ra, fun _ => rfl⟩
  case d9Encf rd ra => exact ⟨_, .d9EncodeF32 rd ra, fun _ => rfl⟩
  case d9Encc rd ra => exact ⟨_, .d9EncodeCenti rd ra, fun _ => rfl⟩
  case ldo | ld16 | ld32 => exact ⟨_, .load rfl rfl, fun _ => rfl⟩
  case cfGft | cfGrp | cfGpr | cfGtt | ecfGat | ecfGhc | ecfGef =>
    exact ⟨_, .getField rfl rfl, fun _ => rfl⟩
  case cfSft | cfSrp | cfSpr | cfStt | ecfSat | ecfShc | ecfSef =>
    exact ⟨_, .setField rfl rfl, fun _ => rfl⟩
  case adGetIndArea | adGetIndLine | adGetIndDev | adGetG2Main | adGetG2Sub | adGetG3Main | adGetG3Mid
      | adGetG3Sub =>
    exact ⟨_, .addressPart rfl rfl, fun _ => rfl⟩
  case dptEnc1 | dptEnc3 | dptEnc5 | dptEnc6 | dptEnc7 | dptEnc8 | dptEnc9 | dptEnc10 | dptEnc11 | dptEnc12
      | dptEnc13 | dptEnc14 | dptEnc232 =>
    exact ⟨_, .dptEncode rfl rfl rfl, fun _ => rfl⟩
  case dptDec1 | dptDec3 | dptDec5 | dptDec6 | dptDec7 | dptDec8 | dptDec9 | dptDec10 | dptDec11 | dptDec12
      | dptDec13 | dptDec14 | dptDec232 =>
    exact ⟨_, .dptDecode rfl rfl, fun _ => rfl⟩
  case dptEncOther | dptDecOther => exact ⟨_, .unknownSelector rfl rfl, fun _ => rfl⟩

end Sys2Proof.Machine
end

section
/-! SUPPORT. What a completed body has written, what a step therefore keeps, and why a store of a wide value raises. -/

namespace Sys2Proof.Machine

open Sys2Proof.Claims

/-- `t` is `s` after the writes that a command `i` can make when it does not raise, before the common completion. -/
inductive Effect (i : Instr) (s : State) : State → Prop
  | nothing : dest i = none → Effect i s s
  | register {rd : Reg} (v : Word) : dest i = some rd → Effect i s (s.setReg rd v)
  | faults (ra : Reg) : i = .csrwFaults ra → Effect i s { s with faults := clearFaults s.faults (s.x.get ra) }
  | window (ra : Reg) : i = .csrwFlen ra → s.reg ra ≤ s.config.fbBytes → Effect i s { s with flen := s.x.get ra }
  | octets (a : Nat) (bs : List Byte) :
      storesOctets i = true → dest i = none → a + bs.length ≤ s.flen.toNat →
      Effect i s { s with fb := s.fb.writeOctets a bs }
  | octetsAndRegister {rd : Reg} (a : Nat) (bs : List Byte) (v : Word) :
      storesOctets i = true → dest i = some rd → a + bs.length ≤ s.flen.toNat →
      Effect i s (State.setReg { s with fb := s.fb.writeOctets a bs } rd v)
  | delivery {rd ra rb rc : Reg} (v : Word) (kind len : Nat) :
      i = .apRd rd ra rb rc → kind ≤ 4 → len ≤ s.flen.toNat → Effect i s (apRdResult rd v kind len s)

variable {i : Instr} {s t : State}

/-- A delivery of AP.RD that follows a length check and a read of the APDU. -/
theorem apduDelivery_ok {rd : Reg} {al need a n kind len : Nat} {f : Nat → Word}
    (h : (do checkApduLength al need; let o ← memRead s a n; return apRdResult rd (f o) kind len s) = .ok t) :
    need ≤ al ∧ ∃ v, t = apRdResult rd v kind len s := by
  obtain ⟨_, hlength, h⟩ := bind_eq_ok.mp h
  obtain ⟨o, _, h⟩ := bind_eq_ok.mp h
  cases h
  exact ⟨checkApduLength_eq_ok.mp hlength, f o, rfl⟩

/-- What AP.RD delivers: a kind up to 4 and a length inside the window (45_apdu.md R206). -/
theorem apRdBody_ok {rd ra rb rc : Reg} (h : apRdBody rd ra rb rc s = .ok t) :
    ∃ v kind len, kind ≤ 4 ∧ len ≤ s.flen.toNat ∧ t = apRdResult rd v kind len s := by
  unfold apRdBody at h
  obtain ⟨_, hw, h⟩ := bind_eq_ok.mp h
  have hfits := checkWindow_eq_ok.mp hw
  split at h
  · cases h; exact ⟨_, _, _, by omega, by omega, rfl⟩
  · obtain ⟨hal, v, rfl⟩ := apduDelivery_ok h; exact ⟨v, _, _, by omega, by omega, rfl⟩
  · obtain ⟨hal, v, rfl⟩ := apduDelivery_ok h; exact ⟨v, _, _, by omega, by omega, rfl⟩
  · obtain ⟨hal, v, rfl⟩ := apduDelivery_ok h; exact ⟨v, _, _, by omega, by omega, rfl⟩
  · cases h; exact ⟨_, _, _, by omega, by omega, rfl⟩

/-- A body that computes a value and writes it to the destination. -/
theorem Effect.of_bind_setReg {α : Type} {rd : Reg} {x : Except Stop α} {f : α → Word} (hd : dest i = some rd)
    (h : (x >>= fun a => .ok (s.setReg rd (f a))) = .ok t) : Effect i s t := by
  obtain ⟨a, -, h⟩ := bind_eq_ok.mp h
  cases h
  exact .register _ hd

/-- The writes of a completed body. -/
theorem BodyForm.effect {b : State → Except Stop State} (hb : BodyForm i b) (h : b s = .ok t) : Effect i s t := by
  cases hb with
  | nop => cases h; exact .nothing rfl
  | loadImmediate => cases h; exact .register _ rfl
  | readCsr hd => cases h; exact .register _ hd
  | clearFaults ra => cases h; exact .faults ra rfl
  | setFlen ra =>
    obtain ⟨_, hv, h⟩ := bind_eq_ok.mp h
    cases h
    exact .window ra rfl (atMost_eq_ok.mp hv).1
  | load hd _ => exact .of_bind_setReg hd h
  | store hst hd _ _ =>
    obtain ⟨v, _, hw, rfl⟩ := storeBody_eq_ok.mp h
    exact .octets _ _ hst hd (by simpa using hw)
  | getField hd _ => exact .of_bind_setReg hd h
  | getRange =>
    obtain ⟨_, _, h⟩ := bind_eq_ok.mp h
    exact .of_bind_setReg rfl h
  | setField hd _ =>
    obtain ⟨_, _, rfl⟩ := setFieldBody_eq_ok.mp h
    exact .register _ hd
  | setRange =>
    obtain ⟨_, _, h⟩ := bind_eq_ok.mp h
    obtain ⟨_, _, rfl⟩ := setFieldBody_eq_ok.mp h
    exact .register _ rfl
  | packIndividual | packGroup2 | packGroup3 => exact .of_bind_setReg rfl h
  | addressPart hd _ => exact .of_bind_setReg hd h
  | apduLength =>
    obtain ⟨_, _, h⟩ := bind_eq_ok.mp h
    simp only at h
    split at h <;> exact .of_bind_setReg rfl h
  | apduWrite =>
    obtain ⟨p, _, ⟨_, rfl⟩ | ⟨_, q, _, h⟩⟩ := apWrBody_eq_ok.mp h
    · exact .nothing rfl
    · obtain ⟨hw, rfl⟩ := memWriteOctets_eq_ok.mp h
      exact .octets _ _ rfl rfl hw
  | apduRead =>
    obtain ⟨v, kind, len, hk, hl, rfl⟩ := apRdBody_ok h
    exact .delivery v kind len rfl hk hl
  | d9Decode | d9EncodeF32 | d9EncodeCenti => exact .of_bind_setReg rfl h
  | dptEncode hst hd _ =>
    obtain ⟨o, _, hw, rfl⟩ := dptEncBody_eq_ok.mp h
    exact .octetsAndRegister _ _ _ hst hd (by simpa using hw)
  | dptDecode hd _ =>
    obtain ⟨_, _, o, v, _, _, rfl⟩ := dptDecBody_eq_ok.mp h
    exact .register v hd
  | unknownSelector => cases h

/-- A command that ends in a next state has made its writes and completed, or has raised one error. -/
theorem exec_eq_next (h : exec i s = .next t) :
    (∃ u, Effect i s u ∧ t = u.complete) ∨ ∃ e, t = s.raiseError e (encode i) := by
  obtain ⟨b, hb, he⟩ := exec_bodyForm i
  rw [he] at h
  rcases finish_eq_next h with ⟨u, hu, rfl⟩ | ⟨e, _, rfl⟩
  · exact .inl ⟨u, hb.effect hu, rfl⟩
  · exact .inr ⟨e, rfl⟩

/-! ### The parameters and the host's list -/

/-- No write of a command reaches the parameters or the host's list. -/
theorem Effect.config_host (h : Effect i s t) : t.config = s.config ∧ t.host = s.host := by
  cases h <;> exact ⟨rfl, rfl⟩

/-- No command changes the parameters or the host's list. -/
theorem exec_config_host (h : exec i s = .next t) : t.config = s.config ∧ t.host = s.host := by
  rcases exec_eq_next h with ⟨u, hu, rfl⟩ | ⟨e, rfl⟩
  · exact hu.config_host
  · exact ⟨rfl, rfl⟩

/-- No action of the host changes the parameters or the actions still to come. -/
theorem perform_config_host {a : HostAction} (h : perform a s = .next t) :
    t.config = s.config ∧ t.host = s.host := by
  cases a with
  | writeReg r v => cases h; exact ⟨rfl, rfl⟩
  | readReg r =>
    cases h
    unfold hostReadReg
    split <;> exact ⟨rfl, rfl⟩
  | writeFB a o =>
    simp only [perform, hostWriteFB] at h
    split at h <;> cases h
    exact ⟨rfl, rfl⟩
  | readFB a =>
    simp only [perform, hostReadFB] at h
    split at h
    · split at h <;> cases h
      exact ⟨rfl, rfl⟩
    · cases h
  | readCsr n => cases h; exact ⟨rfl, rfl⟩
  | writeCsr n v =>
    cases h
    cases n with
    | flen => simp only [hostWriteCsr]; split <;> exact ⟨rfl, rfl⟩
    | lasterr | faults | errcmd | rkind | rlen => exact ⟨rfl, rfl⟩
  | issue w =>
    simp only [perform, issueWord] at h
    split at h
    · exact exec_config_host h
    · cases h; exact ⟨rfl, rfl⟩
  | reset => cases h; exact ⟨rfl, rfl⟩

/-! ### A value wider than the store -/

theorem oct_of_ge {v : Nat} (h : 256 ≤ v) : oct v = raise .rangeError := if_neg (Nat.not_lt.mpr h)

theorem u16_of_ge {v : Nat} (h : 65536 ≤ v) : u16 v = raise .rangeError := if_neg (Nat.not_lt.mpr h)

/-- The value check of a store stands before its window check (60_exceptions.md R324). -/
theorem storeBody_of_raise {n : Nat} {carrier : Nat → Except Stop Nat} {rb ra : Reg} {imm : Byte} {e : ErrorKind}
    (h : carrier (s.reg rb) = raise e) : storeBody n carrier rb ra imm s = raise e := by
  rw [storeBody, h]
  rfl

/-- A body that raises leaves the error record and nothing else (60_exceptions.md R326). -/
theorem finish_of_raise {x : Except Stop State} {e : ErrorKind} (h : x = raise e) :
    finish i s x = .next (raised s e.code (encode i)) := by
  rw [h]
  rfl

end Sys2Proof.Machine
end

section
/-! SUPPORT. Where a body stops without raising: only at an octet of the window that nothing has written. -/

namespace Sys2Proof.Machine

open Sys2Proof.Claims

/-- If the pseudocode `x`, run in `s`, stops for want of an octet's value, that octet is inside the window and has not
been written (20_memory.md R66; 93_implementation_defined.md U2). -/
def StopsAtUnwritten {α : Type} (s : State) (x : Except Stop α) : Prop :=
  ∀ a, x = .error (.unspecified a) → a < s.flen.toNat ∧ s.fb.readByte a = none

namespace StopsAtUnwritten

variable {α β : Type} {s : State}

theorem of_ne {x : Except Stop α} (h : ∀ a, x ≠ .error (.unspecified a)) : StopsAtUnwritten s x :=
  fun a hx => absurd hx (h a)

@[simp] theorem ok (v : α) : StopsAtUnwritten s (.ok v) := of_ne (by simp)

@[simp] theorem raise (e : ErrorKind) : StopsAtUnwritten s (.error (.raise e) : Except Stop α) := of_ne (by simp)

theorem bind {x : Except Stop α} {f : α → Except Stop β} (hx : StopsAtUnwritten s x)
    (hf : ∀ a, StopsAtUnwritten s (f a)) : StopsAtUnwritten s (x >>= f) := by
  intro a h
  rcases bind_eq_error.mp h with h | ⟨v, _, h⟩
  · exact hx a h
  · exact hf v a h

theorem map {x : Except Stop α} (hx : StopsAtUnwritten s x) (f : α → β) : StopsAtUnwritten s (x.map f) := by
  cases x with
  | ok v => exact ok (f v)
  | error e => exact fun a h => hx a (by simpa [Except.map] using h)

/-! ### Checks and conversions: these only raise -/

@[simp] theorem checkWindow (a n : Nat) : StopsAtUnwritten s (checkWindow s a n) := by
  unfold Machine.checkWindow; split <;> simp

@[simp] theorem atMost (b : Nat) (e : ErrorKind) (v : Nat) : StopsAtUnwritten s (atMost b e v) := by
  unfold Machine.atMost; split <;> simp

@[simp] theorem oct (v : Nat) : StopsAtUnwritten s (oct v) := of_ne (oct_ne_unspecified v)

@[simp] theorem u16 (v : Nat) : StopsAtUnwritten s (u16 v) := of_ne (u16_ne_unspecified v)

@[simp] theorem u24 (v : Nat) : StopsAtUnwritten s (u24 v) := by
  unfold Machine.u24; split <;> simp

@[simp] theorem checkRange (hi lo : Fin 8) : StopsAtUnwritten s (checkRange hi lo) := by
  unfold Machine.checkRange; split <;> simp

@[simp] theorem checkDate (t : Nat) : StopsAtUnwritten s (checkDate t) := by
  unfold Machine.checkDate; split <;> simp

@[simp] theorem checkDptLength (len n : Nat) : StopsAtUnwritten s (checkDptLength len n) := by
  unfold Machine.checkDptLength; split_ifs <;> simp

@[simp] theorem checkApduLength (al need : Nat) : StopsAtUnwritten s (checkApduLength al need) := by
  unfold Machine.checkApduLength; split <;> simp

@[simp] theorem packIndividual (a l d : Nat) : StopsAtUnwritten s (packIndividual a l d) := by
  unfold Machine.packIndividual; split <;> simp

@[simp] theorem packGroup2 (m u : Nat) : StopsAtUnwritten s (packGroup2 m u) := by
  unfold Machine.packGroup2; split <;> simp

@[simp] theorem packGroup3 (m i u : Nat) : StopsAtUnwritten s (packGroup3 m i u) := by
  unfold Machine.packGroup3; split <;> simp

@[simp] theorem d9Encode (mode : Rounding) (num : Int) (den : Nat) : StopsAtUnwritten s (d9Encode mode num den) := by
  unfold Machine.d9Encode; split <;> simp

@[simp] theorem d9EncodeF32 (mode : Rounding) (b : Nat) : StopsAtUnwritten s (d9EncodeF32 mode b) := by
  unfold Machine.d9EncodeF32; split <;> simp

@[simp] theorem encodeSigned (n v : Nat) : StopsAtUnwritten s (encodeSigned n v) := by
  unfold Machine.encodeSigned; simp only; split <;> simp

@[simp] theorem dptEncode (mode : Rounding) (v : Nat) (d : Dpt) : StopsAtUnwritten s (dptEncode mode v d) := by
  cases d with
  | time => exact (u24 v).map _
  | date => exact (u24 v).bind checkDate
  | bool | dimming | unsigned8 | signed8 | unsigned16 | signed16 | float16 | unsigned32 | signed32 | float32 | rgb =>
    simp [Machine.dptEncode]

@[simp] theorem dptDecode (o : Nat) (d : Dpt) : StopsAtUnwritten s (dptDecode o d) := by
  cases d with
  | bool | dimming => exact (atMost _ _ o).map _
  | date => exact (checkDate o).map _
  | unsigned8 | signed8 | unsigned16 | signed16 | float16 | time | unsigned32 | signed32 | float32 | rgb =>
    simp [Machine.dptDecode]

/-! ### Access through the window -/

@[simp] theorem memReadOctets (a n : Nat) : StopsAtUnwritten s (memReadOctets s a n) := by
  intro k h
  rcases memReadOctets_eq_error h with ⟨_, he⟩ | ⟨hw, k', he, _, hk, hn⟩
  · cases he
  · cases he; exact ⟨by omega, hn⟩

@[simp] theorem memRead (a n : Nat) : StopsAtUnwritten s (memRead s a n) := (memReadOctets a n).map beNat

@[simp] theorem memWriteOctets (a : Nat) (bs : List Byte) : StopsAtUnwritten s (memWriteOctets s a bs) :=
  (checkWindow a bs.length).bind fun _ => ok _

@[simp] theorem memWrite (a n v : Nat) : StopsAtUnwritten s (memWrite s a n v) := memWriteOctets a _

/-! ### Bodies -/

@[simp] theorem getFieldBody (hi lo : Nat) (rd ra : Reg) : StopsAtUnwritten s (getFieldBody hi lo rd ra s) :=
  (oct _).bind fun _ => ok _

@[simp] theorem setFieldBody (hi lo b : Nat) (e : ErrorKind) (rd ra rb : Reg) :
    StopsAtUnwritten s (setFieldBody hi lo b e rd ra rb s) :=
  (oct _).bind fun _ => (atMost _ _ _).bind fun _ => ok _

theorem apWrOctets (p : List Byte) (p0 off : Nat) : StopsAtUnwritten s (apWrOctets s p p0 off) := by
  unfold Machine.apWrOctets
  split_ifs
  · exact (memRead _ _).bind fun _ => ok _
  · exact (d9EncodeF32 _ _).bind fun _ => ok _
  · exact ok _

theorem apWrBody (ra rb rc : Reg) : StopsAtUnwritten s (apWrBody ra rb rc s) := by
  refine (memReadOctets _ _).bind fun p => ?_
  simp only
  split_ifs
  · exact ok _
  · exact (apWrOctets _ _ _).bind fun _ => memWriteOctets _ _

theorem apRdBody (rd ra rb rc : Reg) : StopsAtUnwritten s (apRdBody rd ra rb rc s) := by
  refine (checkWindow _ _).bind fun _ => ?_
  split
  · exact ok _
  · exact (checkApduLength _ _).bind fun _ => (memRead _ _).bind fun _ => ok _
  · exact (checkApduLength _ _).bind fun _ => (memRead _ _).bind fun _ => ok _
  · exact (checkApduLength _ _).bind fun _ => (memRead _ _).bind fun _ => ok _
  · exact ok _

end StopsAtUnwritten

variable {i : Instr} {s : State}

/-- A body stops without raising only at an octet of the window that nothing has written. -/
theorem BodyForm.stopsAtUnwritten {b : State → Except Stop State} (hb : BodyForm i b) : StopsAtUnwritten s (b s) := by
  cases hb with
  | nop | loadImmediate | readCsr | clearFaults => exact .ok _
  | unknownSelector => exact .raise _
  | setFlen => exact (StopsAtUnwritten.atMost _ _ _).bind fun _ => .ok _
  | load => exact (StopsAtUnwritten.memRead _ _).bind fun _ => .ok _
  | store _ _ _ hc => exact (StopsAtUnwritten.of_ne (hc _)).bind fun _ => .memWrite _ _ _
  | getField => exact .getFieldBody _ _ _ _
  | getRange => exact (StopsAtUnwritten.checkRange _ _).bind fun _ => .getFieldBody _ _ _ _
  | setField => exact .setFieldBody _ _ _ _ _ _ _
  | setRange => exact (StopsAtUnwritten.checkRange _ _).bind fun _ => .setFieldBody _ _ _ _ _ _ _
  | packIndividual => exact (StopsAtUnwritten.packIndividual _ _ _).bind fun _ => .ok _
  | packGroup2 => exact (StopsAtUnwritten.packGroup2 _ _).bind fun _ => .ok _
  | packGroup3 => exact (StopsAtUnwritten.packGroup3 _ _ _).bind fun _ => .ok _
  | addressPart => exact (StopsAtUnwritten.u16 _).bind fun _ => .ok _
  | apduLength =>
    refine (StopsAtUnwritten.checkWindow _ _).bind fun _ => ?_
    simp only
    split
    · exact (StopsAtUnwritten.memRead _ _).bind fun _ => .ok _
    · exact .ok _
  | apduWrite => exact .apWrBody _ _ _
  | apduRead => exact .apRdBody _ _ _ _
  | d9Decode => exact (StopsAtUnwritten.u16 _).bind fun _ => .ok _
  | d9EncodeF32 => exact (StopsAtUnwritten.d9EncodeF32 _ _).bind fun _ => .ok _
  | d9EncodeCenti => exact (StopsAtUnwritten.d9Encode _ _ _).bind fun _ => .ok _
  | dptEncode =>
    exact (StopsAtUnwritten.dptEncode _ _ _).bind fun _ => (StopsAtUnwritten.memWrite _ _ _).bind fun _ => .ok _
  | dptDecode =>
    exact (StopsAtUnwritten.checkWindow _ _).bind fun _ => (StopsAtUnwritten.checkDptLength _ _).bind fun _ =>
      (StopsAtUnwritten.memRead _ _).bind fun _ => (StopsAtUnwritten.dptDecode _ _).bind fun _ => .ok _

/-- A command is refused only where it reads an octet of the window that nothing has written, and the refusal names
both (93_implementation_defined.md U2). -/
theorem exec_eq_refused {q : Refusal} (h : exec i s = .refused q) :
    ∃ a, q = .unspecifiedOctet i a ∧ a < s.flen.toNat ∧ s.fb.readByte a = none := by
  obtain ⟨b, hb, he⟩ := exec_bodyForm i
  rw [he] at h
  obtain ⟨a, ha, rfl⟩ := finish_eq_refused h
  exact ⟨a, rfl, hb.stopsAtUnwritten a ha⟩

end Sys2Proof.Machine
end

section
/-! SUPPORT. What a command's result depends on (00_scope.md R15): two states that agree on the command's inputs give
equal readings, and its body then ends alike in both. -/

namespace Sys2Proof.Machine

open Sys2Proof.Claims

/-! ### The frame buffer up to a bound -/

namespace Memory

variable {m m' : Memory} {n : Nat}

/-- A range is read alike from two buffers that agree on it. -/
theorem readOctets_congr {k : Nat} (a : Nat) (h : ∀ b, a ≤ b → b < a + k → m.readByte b = m'.readByte b) :
    m.readOctets a k = m'.readOctets a k := by
  induction k generalizing a with
  | zero => rfl
  | succ k ih =>
    have htail := ih (a + 1) fun b hl hu => h b (by omega) (by omega)
    simp only [readOctets, h a le_rfl (by omega), htail]

/-- Two buffers that agree below `n` still do after the same octets are stored in both. -/
theorem readByte_writeOctets_congr (h : ∀ b, b < n → m.readByte b = m'.readByte b) (a : Nat) (bs : List Byte)
    {b : Nat} (hb : b < n) : (m.writeOctets a bs).readByte b = (m'.writeOctets a bs).readByte b := by
  by_cases hin : a ≤ b ∧ b < a + bs.length
  · obtain ⟨k, rfl⟩ := Nat.exists_eq_add_of_le hin.1
    have hk : k < bs.length := by omega
    rw [readByte_writeOctets_inside hk, readByte_writeOctets_inside hk]
  · have hout : b < a ∨ a + bs.length ≤ b := by omega
    rw [readByte_writeOctets_outside hout, readByte_writeOctets_outside hout, h b hb]

end Memory

/-! ### Bodies that end alike -/

/-- The states agree on what a command `i` leaves that the spec speaks of: the CSRs, the octets below `n` and the
destination register. -/
structure SameOutputs (i : Instr) (n : Nat) (t t' : State) : Prop where
  csrs : sameCsrs t t'
  octets : ∀ a, a < n → t.fb.readByte a = t'.fb.readByte a
  register : ∀ rd, dest i = some rd → t.x.get rd = t'.x.get rd

/-- The two runs of a pseudocode end alike: the same stop, or results that are related. -/
inductive EndAlike {α : Type} (R : α → α → Prop) : Except Stop α → Except Stop α → Prop
  | stop (e : Stop) : EndAlike R (.error e) (.error e)
  | ok {a a' : α} : R a a' → EndAlike R (.ok a) (.ok a')

/-- Two runs that begin with the same computation end alike if their continuations do. -/
theorem EndAlike.bind {α β : Type} {R : β → β → Prop} (x : Except Stop α) {f f' : α → Except Stop β}
    (h : ∀ a, EndAlike R (f a) (f' a)) : EndAlike R (x >>= f) (x >>= f') := by
  cases x with
  | ok a => exact h a
  | error e => exact .stop e

end Sys2Proof.Machine

namespace Sys2Proof.Claims

open Sys2Proof.Machine

/-! ### Equal inputs give equal readings -/

variable {i : Instr} {s s' : State} (h : sameInputs i s s')
include h

theorem sameInputs.config : s.config = s'.config := h.1

theorem sameInputs.d9Round : s.config.d9Round = s'.config.d9Round := congrArg Config.d9Round h.config

theorem sameInputs.csrs : sameCsrs s s' := h.2.1

theorem sameInputs.octets {a : Nat} (ha : a < s.flen.toNat) : s.fb.readByte a = s'.fb.readByte a := h.2.2.1 a ha

theorem sameInputs.get {r : Reg} (hr : r ∈ sources i) : s.x.get r = s'.x.get r := h.2.2.2 r hr

theorem sameInputs.reg {r : Reg} (hr : r ∈ sources i) : s.reg r = s'.reg r := congrArg BitVec.toNat (h.get hr)

theorem sameInputs.flen : s.flen = s'.flen := by
  obtain ⟨-, -, -, hflen, -⟩ := h.csrs
  exact hflen

theorem sameInputs.csr (n : Csr) : s.csr n = s'.csr n := by
  obtain ⟨hlasterr, hfaults, herrcmd, hflen, hrkind, hrlen⟩ := h.csrs
  cases n <;> assumption

theorem sameInputs.effAddr {ra : Reg} (hr : ra ∈ sources i) (imm : Byte) : effAddr s ra imm = effAddr s' ra imm :=
  congrArg (· + imm.toNat) (h.reg hr)

theorem sameInputs.checkWindow (a n : Nat) : checkWindow s a n = checkWindow s' a n := by
  unfold Machine.checkWindow
  rw [h.flen]

theorem sameInputs.memReadOctets (a n : Nat) : memReadOctets s a n = memReadOctets s' a n := by
  unfold Machine.memReadOctets
  rw [← h.checkWindow]
  by_cases hw : a + n ≤ s.flen.toNat
  · rw [Memory.readOctets_congr a fun b _ hb => h.octets (Nat.lt_of_lt_of_le hb hw)]
  · rw [checkWindow_of_gt (Nat.lt_of_not_le hw)]
    rfl

theorem sameInputs.memRead (a n : Nat) : memRead s a n = memRead s' a n := by
  unfold Machine.memRead
  rw [h.memReadOctets]

theorem sameInputs.apWrOctets (p : List Byte) (p0 off : Nat) : apWrOctets s p p0 off = apWrOctets s' p p0 off := by
  unfold Machine.apWrOctets
  rw [h.memRead, h.d9Round]

/-! ### The writes and the shared bodies -/

/-- A command without destination that writes nothing. -/
theorem sameInputs.unchanged (hd : dest i = none) : SameOutputs i s.flen.toNat s s' where
  csrs := h.csrs
  octets _ ha := h.octets ha
  register rd hrd := by simp [hd] at hrd

/-- The same value written to the destination register. -/
theorem sameInputs.setReg {rd : Reg} (hd : dest i = some rd) (v : Word) :
    SameOutputs i s.flen.toNat (s.setReg rd v) (s'.setReg rd v) where
  csrs := h.csrs
  octets _ ha := h.octets ha
  register r hr := by
    obtain rfl : rd = r := by simpa [hd] using hr
    simp only [State.setReg_get_self]

/-- The same octets stored at the same address. -/
theorem sameInputs.store (hd : dest i = none) (a : Nat) (bs : List Byte) :
    SameOutputs i s.flen.toNat { s with fb := s.fb.writeOctets a bs } { s' with fb := s'.fb.writeOctets a bs } where
  csrs := h.csrs
  octets _ hb := Memory.readByte_writeOctets_congr (fun _ => h.octets) a bs hb
  register rd hrd := by simp [hd] at hrd

/-- The same octets stored and the same value written to the destination register. -/
theorem sameInputs.storeAndSetReg {rd : Reg} (hd : dest i = some rd) (a : Nat) (bs : List Byte) (v : Word) :
    SameOutputs i s.flen.toNat (State.setReg { s with fb := s.fb.writeOctets a bs } rd v)
      (State.setReg { s' with fb := s'.fb.writeOctets a bs } rd v) where
  csrs := h.csrs
  octets _ hb := Memory.readByte_writeOctets_congr (fun _ => h.octets) a bs hb
  register := (h.setReg hd v).register

/-- The same delivery of AP.RD. -/
theorem sameInputs.apRdResult {rd : Reg} (hd : dest i = some rd) (v : Word) (kind len : Nat) :
    SameOutputs i s.flen.toNat (apRdResult rd v kind len s) (apRdResult rd v kind len s') where
  csrs := by
    obtain ⟨hlasterr, hfaults, herrcmd, hflen, -, -⟩ := h.csrs
    exact ⟨hlasterr, hfaults, herrcmd, hflen, rfl, rfl⟩
  octets _ ha := h.octets ha
  register := (h.setReg hd v).register

/-- A computation of a value that is then written to the destination register. -/
theorem sameInputs.bind_setReg {α : Type} {rd : Reg} (hd : dest i = some rd) (x : Except Stop α) (f : α → Word) :
    EndAlike (SameOutputs i s.flen.toNat) (x >>= fun a => .ok (s.setReg rd (f a)))
      (x >>= fun a => .ok (s'.setReg rd (f a))) :=
  .bind x fun a => .ok (h.setReg hd (f a))

theorem sameInputs.memWriteOctets (hd : dest i = none) (a : Nat) (bs : List Byte) :
    EndAlike (SameOutputs i s.flen.toNat) (memWriteOctets s a bs) (memWriteOctets s' a bs) := by
  unfold Machine.memWriteOctets
  rw [h.checkWindow]
  exact .bind _ fun _ => .ok (h.store hd a bs)

theorem sameInputs.getFieldBody {rd ra : Reg} (hd : dest i = some rd) (ha : ra ∈ sources i) (hi lo : Nat) :
    EndAlike (SameOutputs i s.flen.toNat) (getFieldBody hi lo rd ra s) (getFieldBody hi lo rd ra s') := by
  unfold Machine.getFieldBody
  rw [h.reg ha]
  exact h.bind_setReg hd _ _

theorem sameInputs.setFieldBody {rd ra rb : Reg} (hd : dest i = some rd) (ha : ra ∈ sources i) (hb : rb ∈ sources i)
    (hi lo bound : Nat) (e : ErrorKind) :
    EndAlike (SameOutputs i s.flen.toNat) (setFieldBody hi lo bound e rd ra rb s)
      (setFieldBody hi lo bound e rd ra rb s') := by
  unfold Machine.setFieldBody
  rw [h.reg ha, h.reg hb]
  exact .bind _ fun _ => h.bind_setReg hd _ _

theorem sameInputs.dptEncBody {rd ra rb : Reg} (hd : dest i = some rd) (ha : ra ∈ sources i) (hb : rb ∈ sources i)
    (d : Dpt) : EndAlike (SameOutputs i s.flen.toNat) (dptEncBody d rd ra rb s) (dptEncBody d rd ra rb s') := by
  unfold Machine.dptEncBody Machine.memWrite Machine.memWriteOctets
  rw [h.d9Round, h.reg ha, h.reg hb]
  refine .bind _ fun o => ?_
  rw [h.checkWindow, bind_assoc, bind_assoc]
  exact .bind _ fun _ => .ok (h.storeAndSetReg hd _ _ _)

theorem sameInputs.dptDecBody {rd ra rb : Reg} (hd : dest i = some rd) (ha : ra ∈ sources i) (hb : rb ∈ sources i)
    (d : Dpt) : EndAlike (SameOutputs i s.flen.toNat) (dptDecBody d rd ra rb s) (dptDecBody d rd ra rb s') := by
  unfold Machine.dptDecBody
  rw [h.reg ha, h.reg hb, h.checkWindow, h.memRead]
  exact .bind _ fun _ => .bind _ fun _ => .bind _ fun _ => h.bind_setReg hd _ _

theorem sameInputs.apWrBody {ra rb rc : Reg} (hd : dest i = none) (ha : ra ∈ sources i) (hb : rb ∈ sources i)
    (hc : rc ∈ sources i) :
    EndAlike (SameOutputs i s.flen.toNat) (apWrBody ra rb rc s) (apWrBody ra rb rc s') := by
  unfold Machine.apWrBody
  rw [h.reg ha, h.reg hb, h.reg hc, h.memReadOctets]
  refine .bind _ fun p => ?_
  simp only [h.apWrOctets]
  split
  · exact .ok (h.unchanged hd)
  · exact .bind _ fun q => h.memWriteOctets hd _ q

theorem sameInputs.apRdBody {rd ra rb rc : Reg} (hd : dest i = some rd) (ha : ra ∈ sources i) (hb : rb ∈ sources i)
    (hc : rc ∈ sources i) :
    EndAlike (SameOutputs i s.flen.toNat) (apRdBody rd ra rb rc s) (apRdBody rd ra rb rc s') := by
  unfold Machine.apRdBody
  simp only [h.reg ha, h.reg hb, h.reg hc, h.checkWindow, h.memRead]
  refine .bind _ fun _ => ?_
  split
  · exact .ok (h.apRdResult hd _ _ _)
  · exact .bind _ fun _ => .bind _ fun _ => .ok (h.apRdResult hd _ _ _)
  · exact .bind _ fun _ => .bind _ fun _ => .ok (h.apRdResult hd _ _ _)
  · exact .bind _ fun _ => .bind _ fun _ => .ok (h.apRdResult hd _ _ _)
  · exact .ok (h.apRdResult hd _ _ _)

end Sys2Proof.Claims

namespace Sys2Proof.Machine

open Sys2Proof.Claims

variable {i : Instr} {n : Nat} {s s' t : State} {r r' : Except Stop State}

/-- Every body ends alike in two states that agree on the command's inputs. -/
theorem BodyForm.endAlike {b : State → Except Stop State} (hb : BodyForm i b) (h : sameInputs i s s') :
    EndAlike (SameOutputs i s.flen.toNat) (b s) (b s') := by
  have hmem {r : Reg} {l : List Reg} (hl : sources i = l) (hr : r ∈ l) : r ∈ sources i := hl ▸ hr
  cases hb with
  | nop => exact .ok (h.unchanged rfl)
  | loadImmediate rd imm => exact .ok (h.setReg rfl _)
  | @readCsr _ n rd hd =>
    unfold csrrBody
    rw [h.csr]
    exact .ok (h.setReg hd _)
  | clearFaults ra =>
    obtain ⟨hlasterr, hfaults, herrcmd, hflen, hrkind, hrlen⟩ := h.csrs
    have hvalue : Machine.clearFaults s.faults (s.x.get ra) = Machine.clearFaults s'.faults (s'.x.get ra) := by
      rw [hfaults, h.get (by simp [sources])]
    exact .ok ⟨⟨hlasterr, hvalue, herrcmd, hflen, hrkind, hrlen⟩, fun _ ha => h.octets ha, by simp [dest]⟩
  | setFlen ra =>
    obtain ⟨hlasterr, hfaults, herrcmd, -, hrkind, hrlen⟩ := h.csrs
    have hra : ra ∈ sources (.csrwFlen ra) := by simp [sources]
    simp only [h.config, h.reg hra]
    exact .bind _ fun _ =>
      .ok ⟨⟨hlasterr, hfaults, herrcmd, h.get hra, hrkind, hrlen⟩, fun _ ha => h.octets ha, by simp [dest]⟩
  | load hd hsrc =>
    unfold loadBody
    rw [h.effAddr (hmem hsrc (by simp)), h.memRead]
    exact h.bind_setReg hd _ _
  | store _ hd hsrc _ =>
    unfold storeBody
    rw [h.reg (hmem hsrc (by simp)), h.effAddr (hmem hsrc (by simp))]
    exact .bind _ fun _ => h.memWriteOctets hd _ _
  | getField hd hsrc => exact h.getFieldBody hd (hmem hsrc (by simp)) _ _
  | getRange => exact .bind _ fun _ => h.getFieldBody rfl (by simp [sources]) _ _
  | setField hd hsrc => exact h.setFieldBody hd (hmem hsrc (by simp)) (hmem hsrc (by simp)) _ _ _ _
  | setRange => exact .bind _ fun _ => h.setFieldBody rfl (by simp [sources]) (by simp [sources]) _ _ _ _
  | packIndividual rd ra rb rc | packGroup3 rd ra rb rc =>
    simp only [h.reg (r := ra) (by simp [sources]), h.reg (r := rb) (by simp [sources]),
      h.reg (r := rc) (by simp [sources])]
    exact h.bind_setReg rfl _ _
  | packGroup2 rd ra rb =>
    simp only [h.reg (r := ra) (by simp [sources]), h.reg (r := rb) (by simp [sources])]
    exact h.bind_setReg rfl _ _
  | addressPart hd hsrc =>
    unfold addressPartBody
    rw [h.reg (hmem hsrc (by simp))]
    exact h.bind_setReg hd _ _
  | apduLength rd ra rb =>
    simp only [h.reg (r := ra) (by simp [sources]), h.reg (r := rb) (by simp [sources]), h.checkWindow, h.memRead]
    refine .bind _ fun _ => ?_
    split <;> exact h.bind_setReg rfl _ _
  | apduWrite => exact h.apWrBody rfl (by simp [sources]) (by simp [sources]) (by simp [sources])
  | apduRead => exact h.apRdBody rfl (by simp [sources]) (by simp [sources]) (by simp [sources])
  | d9Decode rd ra =>
    simp only [h.reg (r := ra) (by simp [sources])]
    exact h.bind_setReg rfl _ _
  | d9EncodeF32 rd ra | d9EncodeCenti rd ra =>
    simp only [h.d9Round, h.reg (r := ra) (by simp [sources])]
    exact h.bind_setReg rfl _ _
  | dptEncode _ hd hsrc => exact h.dptEncBody hd (hmem hsrc (by simp)) (hmem hsrc (by simp)) _
  | dptDecode hd hsrc => exact h.dptDecBody hd (hmem hsrc (by simp)) (hmem hsrc (by simp)) _
  | unknownSelector => exact .stop _

/-! ### The result of a command -/

/-- No error code is 0 (60_exceptions.md R320). -/
theorem raiseError_lasterr_ne_zero (s : State) (e : ErrorKind) (w : Word) : (s.raiseError e w).lasterr ≠ 0 := by
  cases e <;> simp [ErrorKind.code]

/-- The common completion keeps the agreement. -/
theorem SameOutputs.complete {u u' : State} (h : SameOutputs i n u u') : SameOutputs i n u.complete u'.complete where
  csrs := by
    obtain ⟨-, hfaults, herrcmd, hflen, hrkind, hrlen⟩ := h.csrs
    exact ⟨rfl, hfaults, herrcmd, hflen, hrkind, hrlen⟩
  octets := h.octets
  register := h.register

/-- The error record is the same in both states. -/
theorem sameCsrs_raiseError (h : sameCsrs s s') (e : ErrorKind) (w : Word) :
    sameCsrs (s.raiseError e w) (s'.raiseError e w) := by
  obtain ⟨-, hfaults, -, hflen, hrkind, hrlen⟩ := h
  exact ⟨rfl, congrArg (setFault · e) hfaults, rfl, hflen, hrkind, hrlen⟩

/-- From bodies that end alike, `finish` reaches next states that agree; after an error the destination register, which
was not written, may differ. -/
theorem finish_next_of_endAlike (h : sameInputs i s s') (hr : EndAlike (SameOutputs i s.flen.toNat) r r')
    (ht : finish i s r = .next t) :
    ∃ t', finish i s' r' = .next t' ∧ sameCsrs t t' ∧
      (∀ a, a < s.flen.toNat → t.fb.readByte a = t'.fb.readByte a) ∧
      (t.lasterr = 0 → ∀ rd, dest i = some rd → t.x.get rd = t'.x.get rd) := by
  cases hr with
  | ok hu =>
    cases ht
    have hout := hu.complete
    exact ⟨_, rfl, hout.csrs, hout.octets, fun _ => hout.register⟩
  | stop e =>
    cases e with
    | raise e =>
      cases ht
      exact ⟨_, rfl, sameCsrs_raiseError h.csrs e _, fun _ => h.octets,
        fun h0 => absurd h0 (raiseError_lasterr_ne_zero s e _)⟩
    | unspecified a => cases ht

/-- From bodies that end alike, `finish` gives the same refusal. -/
theorem finish_refused_of_endAlike {R : State → State → Prop} {q : Refusal} (hr : EndAlike R r r')
    (hq : finish i s r = .refused q) : finish i s' r' = .refused q := by
  obtain ⟨a, rfl, rfl⟩ := finish_eq_refused hq
  cases hr
  rfl

end Sys2Proof.Machine
end

section
/-! The obligations of 00_scope.md. -/

namespace Sys2Proof.Machine

open Sys2Proof.Claims

/-- Settles O30: the value check stands first in the body of a store, before the address is looked at. -/
theorem tooWideStoreValuesRaise : Obligations.TooWideStoreValuesRaise := by
  unfold Obligations.TooWideStoreValuesRaise
  intro s rb ra imm
  exact ⟨fun h => finish_of_raise (storeBody_of_raise (oct_of_ge h)),
    fun h => finish_of_raise (storeBody_of_raise (u16_of_ge h))⟩

/-- Settles O10: a step with no action left changes nothing; any other performs one action on the rest of the list. -/
theorem stepKeepsTheParameters : Obligations.StepKeepsTheParameters := by
  unfold Obligations.StepKeepsTheParameters
  intro s t h
  simp only [step, nextAction] at h
  split at h
  next hl => cases h; exact ⟨rfl, by simp [hl]⟩
  next a rest hl => simpa [hl] using perform_config_host h

/-- Settles O14: there is no fault, and a refusal names an octet of the window that has not been written. -/
theorem everyCommandAnswersOnAWrittenWindow : Obligations.EveryCommandAnswersOnAWrittenWindow := by
  unfold Obligations.EveryCommandAnswersOnAWrittenWindow
  intro i s hwritten
  cases h : exec i s with
  | next t => exact ⟨t, rfl⟩
  | fault f => cases f
  | refused q =>
    obtain ⟨a, _, ha, hn⟩ := exec_eq_refused h
    exact absurd hn (hwritten a ha)

/-- Settles O16: the body ends alike in both states, and `finish` adds only the error record and the completion. -/
theorem resultDependsOnlyOnNamedInputs : Obligations.ResultDependsOnlyOnNamedInputs := by
  unfold Obligations.ResultDependsOnlyOnNamedInputs
  intro i s s' h
  obtain ⟨b, hb, he⟩ := exec_bodyForm i
  simp only [he]
  have halike := hb.endAlike h
  exact ⟨fun _ => finish_next_of_endAlike h halike, fun _ => finish_refused_of_endAlike halike⟩

end Sys2Proof.Machine
end

section
/-! SUPPORT. What a command leaves unchanged (10_state.md R32, R36 to R42): the registers but its destination, the
CSRs but those its writes are for; the commands on the CSRs (40_system_and_buffer.md R102, R103). -/

namespace Sys2Proof.Machine

/-! ### Registers -/

variable {i : Instr} {s t : State} {r : Reg}

/-- The record of writing keeps what it says of another register. -/
theorem State.setReg_xWritten_get_ne (s : State) {rd : Reg} (v : Word) (h : r ≠ rd) :
    (s.setReg rd v).xWritten.get r = s.xWritten.get r := by
  have hval : rd.val ≠ r.val := fun hv => h (Fin.ext hv.symm)
  simp [State.setReg, Vector.get_eq_getElem, Vector.getElem_set_ne _ _ hval]

/-- A write to the destination reaches no other register. -/
theorem State.setReg_frame (s : State) {rd : Reg} (v : Word) (hd : dest i = some rd) (hr : dest i ≠ some r) :
    (s.setReg rd v).x.get r = s.x.get r ∧ (s.setReg rd v).xWritten.get r = s.xWritten.get r := by
  have hne : r ≠ rd := fun h => hr (h ▸ hd)
  exact ⟨State.setReg_get_ne s rd v hne, State.setReg_xWritten_get_ne s v hne⟩

/-- No write of a command reaches a register that is not its destination. -/
theorem Effect.register_frame (h : Effect i s t) (hr : dest i ≠ some r) :
    t.x.get r = s.x.get r ∧ t.xWritten.get r = s.xWritten.get r := by
  cases h with
  | nothing | faults | window | octets => exact ⟨rfl, rfl⟩
  | register v hd => exact s.setReg_frame v hd hr
  | octetsAndRegister a bs v _ hd => exact State.setReg_frame { s with fb := s.fb.writeOctets a bs } v hd hr
  | delivery v _ _ hi => exact s.setReg_frame v (hi ▸ rfl) hr

/-- The destination is the field `rd` of the command (30_encoding.md R81). -/
theorem fields_rd_of_dest (h : dest i = some r) : i.fields.rd = r := by
  cases i with
  | nop | csrwFaults | csrwFlen | sto | st16 | st32 | apWr | dptEncOther | dptDecOther => cases h
  | _ => exact Option.some.inj h

/-- The field `rd` of a word is its bits 23 to 20 (30_encoding.md R80). -/
theorem fields_rd_val (w : Word) : (fields w).rd.val = w.toNat / 2 ^ 20 % 16 := by
  simp [fields, bits, Nat.shiftRight_eq_div_pow]

/-! ### CSRs -/

/-- A command writes FLEN only as CSRW FLEN, RKIND and RLEN only as AP.RD, and never what is the host's. -/
theorem Effect.csr_frame (h : Effect i s t) :
    ((∀ ra, i ≠ .csrwFlen ra) → t.flen = s.flen) ∧
    ((∀ rd ra rb rc, i ≠ .apRd rd ra rb rc) → t.rkind = s.rkind ∧ t.rlen = s.rlen) ∧
    t.hostData = s.hostData ∧ t.freeCount = s.freeCount := by
  cases h with
  | nothing | register | faults | octets | octetsAndRegister =>
    exact ⟨fun _ => rfl, fun _ => ⟨rfl, rfl⟩, rfl, rfl⟩
  | window ra hi => exact ⟨fun hn => absurd hi (hn ra), fun _ => ⟨rfl, rfl⟩, rfl, rfl⟩
  | delivery _ _ _ hi => exact ⟨fun _ => rfl, fun hn => absurd hi (hn _ _ _ _), rfl, rfl⟩

/-! ### CSRR and CSRW -/

/-- Bit by bit, CSRW FAULTS clears those of the bits 1 to 6 that are 1 in the written value (10_state.md R38). -/
theorem getLsbD_clearFaults (faults v : Word) {k : Nat} (hk : k < 32) :
    (clearFaults faults v).getLsbD k = (faults.getLsbD k && !(decide (1 ≤ k ∧ k ≤ 6) && v.getLsbD k)) := by
  have hmask : ∀ k < 32, (0x7E#32).getLsbD k = decide (1 ≤ k ∧ k ≤ 6) := by decide
  simp only [clearFaults, BitVec.getLsbD_and, BitVec.getLsbD_not, hk, decide_true, Bool.true_and, hmask k hk,
    Bool.and_comm (v.getLsbD k)]

/-- CSRR completes with the CSR's value in the destination. -/
theorem finish_csrrBody (i : Instr) (n : Csr) (rd : Reg) (s : State) :
    finish i s (csrrBody n rd s) = .next (Claims.written s rd (s.csr n)) := rfl

theorem atMost_of_le {b v : Nat} {e : ErrorKind} (h : v ≤ b) : atMost b e v = .ok v := if_neg (Nat.not_lt.mpr h)

theorem atMost_of_gt {b v : Nat} {e : ErrorKind} (h : b < v) : atMost b e v = raise e := if_pos h

end Sys2Proof.Machine
end

section
/-! SUPPORT. What a step performs, and what each action of the host does (10_state.md R46, R47). -/

namespace Sys2Proof.Machine

open Sys2Proof.Claims

variable {s : State}

/-- A step performs the host's next action in the state with that action taken from the list. -/
theorem step_of_host_cons {a : HostAction} {rest : List HostAction} (h : s.host = a :: rest) :
    step s = perform a { s with host := rest } := by
  simp only [step, nextAction, h]

/-- With no action left a step changes nothing. -/
theorem step_of_host_nil (h : s.host = []) : step s = .next s := by
  simp only [step, nextAction, h]

/-- A word that decodes is executed as its command. -/
theorem issueWord_of_decode {w : Word} {i : Instr} (h : decode w = .ok i) : issueWord w s = exec i s := by
  simp only [issueWord, h]

/-- What is stored at `a` stands there, and nothing else has changed. -/
theorem storedAt_writeOctets (m : Memory) (a : Nat) (bs : List Byte) : storedAt m (m.writeOctets a bs) a bs :=
  ⟨fun _ h => Memory.readByte_writeOctets_inside h, fun _ h => Memory.readByte_writeOctets_outside h⟩

theorem hostReadReg_of_written {r : Reg} (h : s.xWritten.get r = true) :
    hostReadReg r s = { s with hostData := s.x.get r } := if_pos h

theorem hostReadReg_of_unwritten {r : Reg} (h : s.xWritten.get r = false) :
    hostReadReg r s = { s with hostData := Config.freeHostRead s.freeCount, freeCount := s.freeCount + 1 } :=
  if_neg (Bool.eq_false_iff.mp h)

theorem hostWriteFB_of_lt {a : Nat} (o : Byte) (h : a < s.config.fbBytes) :
    hostWriteFB a o s = .next { s with fb := s.fb.writeOctets a [o] } := if_pos h

theorem hostReadFB_of_readByte {a : Nat} {o : Byte} (h : a < s.config.fbBytes) (ho : s.fb.readByte a = some o) :
    hostReadFB a s = .next { s with hostData := o.setWidth 32 } := by
  simp only [hostReadFB, h, ho, if_true]

/-- HostWriteCSR of FLEN up to FB_BYTES sets it (10_state.md R40). -/
theorem hostWriteCsr_flen_of_le {v : Word} (h : v.toNat ≤ s.config.fbBytes) :
    hostWriteCsr .flen v s = { s with flen := v } := if_neg (Nat.not_lt.mpr h)

theorem hostWriteCsr_flen_of_gt {v : Word} (h : s.config.fbBytes < v.toNat) : hostWriteCsr .flen v s = s := if_pos h

/-- A write to a CSR other than FAULTS and FLEN is ignored (93_implementation_defined.md U11). -/
theorem hostWriteCsr_of_readOnly {n : Csr} (v : Word) (h : n ∈ [Csr.lasterr, .errcmd, .rkind, .rlen]) :
    hostWriteCsr n v s = s := by
  cases n with
  | lasterr | errcmd | rkind | rlen => rfl
  | faults | flen => simp at h

/-- No register counts as written after reset. -/
@[simp] theorem State.reset_xWritten_get (r : Reg) : State.reset.xWritten.get r = false := by
  simp [State.reset, Vector.get_eq_getElem]

end Sys2Proof.Machine
end

section
/-! SUPPORT. The unit's invariant (10_state.md R37 to R44) under each write of the model. -/

namespace Sys2Proof

open Sys2Proof.Machine

/-- The bit of an error is one of the bits 1 to 6 of FAULTS. -/
theorem faultBit_and_mask (e : ErrorKind) : (1#32 <<< e.code) &&& 0x7E#32 = 1#32 <<< e.code := by cases e <;> decide

namespace UnitInv

variable {i : Instr} {s t : State}

theorem reset : UnitInv State.reset where
  config := by decide
  lasterr := by decide
  faults := by decide
  flen := by decide
  rkind := by decide
  rlen := by decide
  fbForm := .nil
  fbRange _ hc := by cases hc

variable (h : UnitInv s)
include h

theorem complete : UnitInv s.complete := { h with lasterr := Nat.zero_le 6 }

theorem raiseError (e : ErrorKind) (w : Word) : UnitInv (s.raiseError e w) :=
  { h with
    lasterr := (Nat.mod_le _ _).trans (code_range e).2
    faults := by
      show (s.faults ||| 1#32 <<< e.code) &&& 0x7E#32 = s.faults ||| 1#32 <<< e.code
      rw [BitVec.and_or_distrib_right, h.faults, faultBit_and_mask] }

theorem setReg (r : Reg) (v : Word) : UnitInv (s.setReg r v) := { h with }

theorem clearFaults (v : Word) : UnitInv { s with faults := clearFaults s.faults v } :=
  { h with
    faults := by
      show (s.faults &&& _) &&& 0x7E#32 = s.faults &&& _
      rw [BitVec.and_assoc, BitVec.and_comm _ 0x7E#32, ← BitVec.and_assoc, h.faults] }

theorem setFlen {v : Word} (hv : v.toNat ≤ s.config.fbBytes) : UnitInv { s with flen := v } := { h with flen := hv }

/-- Octets stored inside FB_BYTES. -/
theorem writeOctets {a : Nat} {bs : List Byte} (hfit : a + bs.length ≤ s.config.fbBytes) :
    UnitInv { s with fb := s.fb.writeOctets a bs } :=
  { h with
    fbForm := Memory.writeOctets_wf a bs h.fbForm
    fbRange := by
      intro c hc
      rcases Memory.mem_writeOctets hc with ⟨_, hlt⟩ | hold
      · exact hlt.trans_le hfit
      · exact h.fbRange c hold }

/-- A delivery of AP.RD of a length inside the window. -/
theorem apRdResult (rd : Reg) (v : Word) {kind len : Nat} (hk : kind ≤ 4) (hl : len ≤ s.flen.toNat) :
    UnitInv (apRdResult rd v kind len s) :=
  { h with
    rkind := (Nat.mod_le _ _).trans hk
    rlen := (Nat.mod_le _ _).trans (hl.trans h.flen) }

/-- The writes of a completed command. -/
theorem effect (he : Effect i s t) : UnitInv t := by
  cases he with
  | nothing => exact h
  | register v => exact h.setReg _ v
  | faults => exact h.clearFaults _
  | window _ _ hv => exact h.setFlen hv
  | octets _ _ _ _ hw => exact h.writeOctets (hw.trans h.flen)
  | octetsAndRegister _ _ v _ _ hw => exact (h.writeOctets (hw.trans h.flen)).setReg _ v
  | delivery v _ _ _ hk hl => exact h.apRdResult _ v hk hl

theorem exec (he : exec i s = .next t) : UnitInv t := by
  rcases exec_eq_next he with ⟨u, hu, rfl⟩ | ⟨e, rfl⟩
  · exact (h.effect hu).complete
  · exact h.raiseError e _

theorem hostReadReg (r : Reg) : UnitInv (hostReadReg r s) := by
  unfold Machine.hostReadReg
  split <;> exact { h with }

theorem hostWriteCsr (n : Csr) (v : Word) : UnitInv (hostWriteCsr n v s) := by
  cases n with
  | lasterr | errcmd | rkind | rlen => exact h
  | faults => exact h.clearFaults v
  | flen =>
    by_cases hv : v.toNat ≤ s.config.fbBytes
    · rw [hostWriteCsr_flen_of_le hv]; exact h.setFlen hv
    · rw [hostWriteCsr_flen_of_gt (Nat.lt_of_not_le hv)]; exact h

/-- HostReset keeps the parameters, which were legal. -/
theorem afterReset : UnitInv s.afterReset :=
  { reset with config := h.config, flen := Nat.zero_le _, rlen := Nat.zero_le _, fbRange := fun _ hc => by cases hc }

/-- Every action of the host. -/
theorem perform {a : HostAction} (hp : perform a s = .next t) : UnitInv t := by
  cases a with
  | writeReg r v => cases hp; exact h.setReg r v
  | readReg r => cases hp; exact h.hostReadReg r
  | writeFB a o =>
    by_cases ha : a < s.config.fbBytes
    · cases (hostWriteFB_of_lt o ha).symm.trans hp
      exact h.writeOctets ha
    · simp [Machine.perform, hostWriteFB, ha] at hp
  | readFB a =>
    simp only [Machine.perform, hostReadFB] at hp
    split at hp
    · split at hp <;> cases hp
      exact { h with }
    · cases hp
  | readCsr n => cases hp; exact { h with }
  | writeCsr n v => cases hp; exact h.hostWriteCsr n v
  | issue w =>
    simp only [Machine.perform, issueWord] at hp
    split at hp
    · exact h.exec hp
    · cases hp; exact h.raiseError _ _
  | reset => cases hp; exact h.afterReset

theorem step (hs : step s = .next t) : UnitInv t := by
  cases hl : s.host with
  | nil => cases (step_of_host_nil hl).symm.trans hs; exact h
  | cons a rest =>
    have hrest : UnitInv { s with host := rest } := { h with }
    exact hrest.perform ((step_of_host_cons hl).symm.trans hs)

end UnitInv

end Sys2Proof
end

section
/-! SUPPORT. The words of the DPT9 float by division, and AP.RD's body class by class (45_apdu.md R205, R206). -/

namespace Sys2Proof.Machine

open Sys2Proof.Claims

/-! ### The centi value of a word -/

/-- Inverting the low bits of a number that fits them. -/
theorem xor_two_pow_sub_one {m n : Nat} (h : m < 2 ^ n) : m ^^^ (2 ^ n - 1) = 2 ^ n - 1 - m := by
  have hnot : (BitVec.ofNat n m ^^^ BitVec.allOnes n).toNat = (~~~BitVec.ofNat n m).toNat := by
    rw [BitVec.xor_allOnes]
  simpa only [BitVec.toNat_xor, BitVec.toNat_not, BitVec.toNat_ofNat, BitVec.toNat_allOnes, Nat.mod_eq_of_lt h]
    using hnot

/-- The exact decoding is the document's formula `~(m ^ 0x7FF)` (46_dpt9.md R222). -/
theorem d9Decode_eq_d9Value {w : Nat} (h : w < 65536) : d9Decode w = d9Value w := by
  have hsign : bits w 15 15 = 1 ↔ 32768 ≤ w := by simp only [bits, Nat.shiftRight_eq_div_pow]; omega
  have hmantissa : bits w 10 0 = w % 2048 := by simp [bits]
  have hexponent : bits w 14 11 = w / 2048 % 16 := by simp [bits, Nat.shiftRight_eq_div_pow]
  have hlow : w % 2048 < 2 ^ 11 := Nat.mod_lt _ (by decide)
  have hinvert : w % 2048 ^^^ 0x7FF = 0x7FF - w % 2048 := xor_two_pow_sub_one hlow
  simp only [d9Decode, d9Mantissa, d9Exponent, d9Value, hsign, hmantissa, hexponent, hinvert]
  congr 1
  split <;> omega

/-! ### Reading octets that stand in the buffer -/

variable {s : State}

/-- A range of written octets inside the window is read as their big-endian value (20_memory.md R60). -/
theorem memRead_of_holds {a : Nat} {p : List Byte} (hw : a + p.length ≤ s.flen.toNat) (hp : holds s.fb a p) :
    memRead s a p.length = .ok (beNat p) :=
  memRead_eq_ok.mpr ⟨hw, p, Memory.readOctets_eq_ok.mpr ⟨rfl, hp⟩, rfl⟩

theorem holds_singleton {m : Memory} {a : Nat} {o : Byte} (h : m.readByte a = some o) : holds m a [o] := by
  intro k hk
  obtain rfl : k = 0 := by simpa using hk
  exact h

theorem memRead_of_readByte {a : Nat} {o : Byte} (hw : a + 1 ≤ s.flen.toNat) (ho : s.fb.readByte a = some o) :
    memRead s a 1 = .ok o.toNat := by
  simpa [beNat] using memRead_of_holds (p := [o]) hw (holds_singleton ho)

/-- Two octets are read as the word they make together. -/
theorem beNat_pair (o o' : Byte) : beNat [o, o'] = (o ++ o').toNat := by
  rw [BitVec.toNat_append, ← Nat.shiftLeft_add_eq_or_of_lt o'.isLt]
  simp [beNat, Nat.shiftLeft_eq]

/-! ### AP.RD -/

variable {t : State} {rd ra rb rc : Reg}

theorem checkApduLength_of_le {al need : Nat} (h : need ≤ al) : checkApduLength al need = .ok () :=
  if_neg (Nat.not_lt.mpr h)

theorem checkApduLength_of_gt {al need : Nat} (h : al < need) : checkApduLength al need = raise .frameTooShort :=
  if_pos h

/-- AP.RD of an APDU that leaves the window raises before the class is looked at. -/
theorem apRdBody_of_gt (h : s.flen.toNat < s.reg ra + s.reg rb) : apRdBody rd ra rb rc s = raise .frameTooShort := by
  simp only [apRdBody, checkWindow_of_gt h]
  rfl

/-- AP.RD inside the window for a class of 1 to 3: an APDU of at least `need` octets, of which the `n` at `a` are read
and delivered by `f` as the given kind. -/
def apduDelivery (rd : Reg) (al need a n kind : Nat) (f : Nat → Word) (s : State) : Except Stop State := do
  checkApduLength al need
  let o ← memRead s a n
  return apRdResult rd (f o) kind n s

theorem apduDelivery_of_gt {al need a n kind : Nat} {f : Nat → Word} (h : al < need) :
    apduDelivery rd al need a n kind f s = raise .frameTooShort := by
  simp only [apduDelivery, checkApduLength_of_gt h]
  rfl

theorem apduDelivery_of_memRead {al need a n kind o : Nat} {f : Nat → Word} (h : need ≤ al)
    (ho : memRead s a n = .ok o) : apduDelivery rd al need a n kind f s = .ok (apRdResult rd (f o) kind n s) := by
  simp only [apduDelivery, checkApduLength_of_le h, ho]
  rfl

section Classes
variable (hw : s.reg ra + s.reg rb ≤ s.flen.toNat)
include hw

theorem apRdBody_class_zero (hc : s.reg rc = 0) : apRdBody rd ra rb rc s = .ok (apRdResult rd 0 0 0 s) := by
  simp only [apRdBody, checkWindow_of_le hw, hc]
  rfl

theorem apRdBody_class_one (hc : s.reg rc = 1) :
    apRdBody rd ra rb rc s =
      apduDelivery rd (s.reg rb) 2 (s.reg ra + 1) 1 1 (fun o => BitVec.ofNat 32 (o &&& 0x3F)) s := by
  simp only [apRdBody, checkWindow_of_le hw, hc]
  rfl

theorem apRdBody_class_two (hc : s.reg rc = 2) :
    apRdBody rd ra rb rc s = apduDelivery rd (s.reg rb) 3 (s.reg ra + 2) 1 2 (BitVec.ofNat 32) s := by
  simp only [apRdBody, checkWindow_of_le hw, hc]
  rfl

theorem apRdBody_class_three (hc : s.reg rc = 3) :
    apRdBody rd ra rb rc s =
      apduDelivery rd (s.reg rb) 4 (s.reg ra + 2) 2 3 (fun w => BitVec.ofInt 32 (d9Decode w)) s := by
  simp only [apRdBody, checkWindow_of_le hw, hc]
  rfl

theorem apRdBody_class_large (hc : 4 ≤ s.reg rc) :
    apRdBody rd ra rb rc s = .ok (apRdResult rd (s.x.get ra) 4 (s.reg rb) s) := by
  obtain ⟨k, hk⟩ := Nat.exists_eq_add_of_le' hc
  have hbase : BitVec.ofNat 32 (s.reg ra) = s.x.get ra := by simp [State.reg]
  simp only [apRdBody, checkWindow_of_le hw, hk, hbase]
  rfl

/-- An APDU that is too short for its class of 1 to 3 raises. -/
theorem apRdBody_of_short (hc : 1 ≤ s.reg rc ∧ s.reg rc ≤ 3) (hshort : s.reg rb < s.reg rc + 1) :
    apRdBody rd ra rb rc s = raise .frameTooShort := by
  obtain hc | hc | hc : s.reg rc = 1 ∨ s.reg rc = 2 ∨ s.reg rc = 3 := by omega
  · exact (apRdBody_class_one hw hc).trans (apduDelivery_of_gt (by omega))
  · exact (apRdBody_class_two hw hc).trans (apduDelivery_of_gt (by omega))
  · exact (apRdBody_class_three hw hc).trans (apduDelivery_of_gt (by omega))

end Classes

/-- AP.RD completes with what its body delivers. -/
theorem exec_apRd_of_ok {v : Word} {kind len : Nat} (h : apRdBody rd ra rb rc s = .ok (apRdResult rd v kind len s)) :
    exec (.apRd rd ra rb rc) s = .next (delivered s rd v kind len) := by
  simp only [exec, execApRd, h]
  rfl

end Sys2Proof.Machine
end

section
/-! The obligations of 10_state.md. -/

namespace Sys2Proof.Machine

open Sys2Proof.Claims

/-- Settles O9: every action of the host keeps the invariant, and a step performs at most one. -/
theorem stepKeepsTheUnitInvariant : Obligations.StepKeepsTheUnitInvariant := by
  unfold Obligations.StepKeepsTheUnitInvariant
  exact fun _ _ h hs => h.step hs

/-- Settles O17: the frame of a completed command's writes; an error writes no register. -/
theorem onlyTheDestinationRegisterChanges : Obligations.OnlyTheDestinationRegisterChanges := by
  unfold Obligations.OnlyTheDestinationRegisterChanges
  intro i
  constructor
  · intro s t r h hr
    rcases exec_eq_next h with ⟨u, hu, rfl⟩ | ⟨e, rfl⟩
    · exact hu.register_frame hr
    · exact ⟨rfl, rfl⟩
  · intro r hr
    have hfields : fields (encode i) = i.fields := fields_pack i.fields (op_lt i)
    rw [← fields_rd_val, hfields, fields_rd_of_dest hr]

/-- Settles O18: the frame of a completed command's writes; an error writes none of these fields. -/
theorem csrsChangeOnlyByTheirCommands : Obligations.CsrsChangeOnlyByTheirCommands := by
  unfold Obligations.CsrsChangeOnlyByTheirCommands
  intro i s t h
  obtain ⟨hconfig, hhost⟩ := exec_config_host h
  rcases exec_eq_next h with ⟨u, hu, rfl⟩ | ⟨e, rfl⟩
  · obtain ⟨hflen, hresult, hdata, hfree⟩ := hu.csr_frame
    exact ⟨hflen, hresult, hconfig, hhost, hdata, hfree⟩
  · exact ⟨fun _ => rfl, fun _ => ⟨rfl, rfl⟩, rfl, rfl, rfl, rfl⟩

/-- Settles O25: the new FAULTS is `clearFaults`, read bit by bit. -/
theorem csrWriteFaultsClearsNamedBits : Obligations.CsrWriteFaultsClearsNamedBits := by
  unfold Obligations.CsrWriteFaultsClearsNamedBits
  exact fun s ra => ⟨clearFaults s.faults (s.x.get ra), rfl, fun _ hk => getLsbD_clearFaults _ _ hk⟩

/-- Settles O48: the window check first, then the class; classes 1 to 3 check the APDU's length before they read. -/
theorem apRdResultsByClass : Obligations.ApRdResultsByClass := by
  unfold Obligations.ApRdResultsByClass
  intro s rd ra rb rc o o'
  refine ⟨?zero, ?one, ?two, ?three, ?large, ?short⟩
  case zero => exact fun hw hc => exec_apRd_of_ok (apRdBody_class_zero hw hc)
  case one =>
    intro hw hc hal ho
    have hread : memRead s (s.reg ra + 1) 1 = .ok o.toNat := memRead_of_readByte (by simp only [State.reg]; omega) ho
    have hvalue : BitVec.ofNat 32 (o.toNat &&& 0x3F) = (o &&& 0x3F).setWidth 32 := by
      rw [← BitVec.ofNat_toNat, BitVec.toNat_and]
      rfl
    rw [← hvalue]
    exact exec_apRd_of_ok ((apRdBody_class_one hw hc).trans (apduDelivery_of_memRead hal hread))
  case two =>
    intro hw hc hal ho
    have hread : memRead s (s.reg ra + 2) 1 = .ok o.toNat := memRead_of_readByte (by simp only [State.reg]; omega) ho
    rw [← BitVec.ofNat_toNat]
    exact exec_apRd_of_ok ((apRdBody_class_two hw hc).trans (apduDelivery_of_memRead hal hread))
  case three =>
    intro hw hc hal ho
    have hread : memRead s (s.reg ra + 2) 2 = .ok (o ++ o').toNat := by
      rw [← beNat_pair]
      exact memRead_of_holds (p := [o, o']) (by simp only [State.reg, List.length]; omega) ho
    rw [← d9Decode_eq_d9Value (o ++ o').isLt]
    exact exec_apRd_of_ok ((apRdBody_class_three hw hc).trans (apduDelivery_of_memRead hal hread))
  case large => exact fun hw hc => exec_apRd_of_ok (apRdBody_class_large hw hc)
  case short =>
    intro h
    suffices hraise : apRdBody rd ra rb rc s = raise .frameTooShort from finish_of_raise hraise
    by_cases hw : s.reg ra + s.reg rb ≤ s.flen.toNat
    · obtain hgt | ⟨hpos, hle, hal⟩ := h
      · exact absurd hw (Nat.not_le.mpr hgt)
      · exact apRdBody_of_short hw ⟨hpos, hle⟩ hal
    · exact apRdBody_of_gt (Nat.lt_of_not_le hw)

/-- Settles O5: a step performs the first action of the list, and issuing a word that decodes executes its command. -/
theorem stepRunsTheIssuedCommand : Obligations.StepRunsTheIssuedCommand := by
  unfold Obligations.StepRunsTheIssuedCommand
  constructor
  · intro s w rest i hs hw
    exact (step_of_host_cons hs).trans (issueWord_of_decode hw)
  · intro s w i hw
    have hword : BitVec.ofNat 32 (w.toNat % 2 ^ 32) = w := by simp [Nat.mod_eq_of_lt w.isLt]
    have hhost : (s.withFetchWord 32 w.toNat).host = .issue w :: s.host := by rw [State.withFetchWord_host, hword]
    exact (step_of_host_cons hhost).trans (issueWord_of_decode hw)

/-- Settles O6: a step performs the action, and each action does what its own lemma says. -/
theorem hostReadsAndWrites : Obligations.HostReadsAndWrites := by
  unfold Obligations.HostReadsAndWrites
  intro s rest s'
  refine ⟨?writeReg, ?readWritten, ?readUnwritten, ?writeFB, ?readFB, step_of_host_cons, step_of_host_cons,
    step_of_host_cons, step_of_host_cons, step_of_host_cons, step_of_host_cons, ?writeFaults, ?writeFlen,
    ?writeFlenTooLarge, ?writeReadOnly⟩
  case writeReg => exact fun _ _ h => step_of_host_cons h
  case readWritten =>
    intro i h hw
    exact (step_of_host_cons h).trans (congrArg Host.Outcome.next (hostReadReg_of_written (s := s') hw))
  case readUnwritten =>
    intro i h hw
    exact ⟨_, (step_of_host_cons h).trans (congrArg Host.Outcome.next (hostReadReg_of_unwritten (s := s') hw))⟩
  case writeFB =>
    intro a o h ha
    exact ⟨_, (step_of_host_cons h).trans (hostWriteFB_of_lt o ha), storedAt_writeOctets _ _ _⟩
  case readFB =>
    intro a o h ha ho
    exact (step_of_host_cons h).trans (hostReadFB_of_readByte ha ho)
  case writeFaults =>
    intro v h
    exact ⟨_, step_of_host_cons h, fun _ hk => getLsbD_clearFaults _ _ hk⟩
  case writeFlen =>
    intro v h hv
    exact (step_of_host_cons h).trans (congrArg Host.Outcome.next (hostWriteCsr_flen_of_le (s := s') hv))
  case writeFlenTooLarge =>
    intro v h hv
    exact (step_of_host_cons h).trans (congrArg Host.Outcome.next (hostWriteCsr_flen_of_gt (s := s') hv))
  case writeReadOnly =>
    intro n v hn h
    exact (step_of_host_cons h).trans (congrArg Host.Outcome.next (hostWriteCsr_of_readOnly v hn))

/-- Settles O7: HostReset answers `afterReset`, whose CSRs, buffer and record of writing are those of the reset
state. -/
theorem hostResetClearsTheUnit : Obligations.HostResetClearsTheUnit := by
  unfold Obligations.HostResetClearsTheUnit
  refine ⟨fun s rest h => ?_, rfl, rfl, rfl, rfl, rfl, rfl, fun _ => rfl, State.reset_xWritten_get⟩
  exact ⟨_, step_of_host_cons h, ⟨rfl, rfl, rfl, rfl, rfl, rfl⟩, fun _ => rfl, State.reset_xWritten_get, rfl, rfl⟩

/-- Settles O8: every range holds of 0, and the empty buffer is in canonical form. -/
theorem resetMeetsTheUnitInvariant : Obligations.ResetMeetsTheUnitInvariant := by
  unfold Obligations.ResetMeetsTheUnitInvariant
  exact UnitInv.reset

/-- Settles O24: each of the six commands has the body `csrrBody` of its CSR. -/
theorem csrReadResults : Obligations.CsrReadResults := by
  unfold Obligations.CsrReadResults
  intro s rd
  exact ⟨finish_csrrBody (.csrrLasterr rd) .lasterr rd s, finish_csrrBody (.csrrFaults rd) .faults rd s,
    finish_csrrBody (.csrrErrcmd rd) .errcmd rd s, finish_csrrBody (.csrrFlen rd) .flen rd s,
    finish_csrrBody (.csrrRkind rd) .rkind rd s, finish_csrrBody (.csrrRlen rd) .rlen rd s⟩

/-- Settles O26: the two outcomes of the bound check that precedes the write of FLEN. -/
theorem csrWriteFlenSetsTheWindow : Obligations.CsrWriteFlenSetsTheWindow := by
  unfold Obligations.CsrWriteFlenSetsTheWindow
  intro s ra
  constructor
  · intro h
    have hcheck : atMost s.config.fbBytes .rangeError (s.reg ra) = .ok (s.reg ra) := atMost_of_le h
    simp only [exec, execCsrwFlen, hcheck]
    rfl
  · intro h
    have hcheck : atMost s.config.fbBytes .rangeError (s.reg ra) = raise .rangeError := atMost_of_gt h
    simp only [exec, execCsrwFlen, hcheck]
    rfl

end Sys2Proof.Machine
end

section
/-! SUPPORT. Loads, stores, AP.DLEN and AP.WR, inside the window and outside it (20_memory.md R60, R64;
40_system_and_buffer.md R104 to R110; 45_apdu.md R201 to R204). -/

namespace Sys2Proof.Machine

open Sys2Proof.Claims

variable {s t : State} {i : Instr}

/-! ### Bodies that complete -/

/-- A body that completes leaves its writes and LASTERR 0 (60_exceptions.md R327). -/
theorem finish_of_ok {x : Except Stop State} (h : x = .ok t) : finish i s x = .next t.complete := by
  rw [h]
  rfl

/-- A body whose only write is a range of octets completes storing them. -/
theorem completesStoring_of_ok {x : Except Stop State} {a : Nat} {p : List Byte} (hi : exec i s = finish i s x)
    (hx : x = .ok { s with fb := s.fb.writeOctets a p }) : completesStoring i s a p :=
  ⟨s.fb.writeOctets a p, by rw [hi, hx]; rfl, storedAt_writeOctets _ _ _⟩

/-- The writes of a command that stores no octets leave the frame buffer. -/
theorem Effect.fb_eq_of_not_stores (h : Effect i s t) (hi : storesOctets i = false) : t.fb = s.fb := by
  cases h with
  | nothing | register | faults | window | delivery => rfl
  | octets _ _ hst | octetsAndRegister _ _ _ hst => exact absurd hst (by simp [hi])

/-! ### Outside the window -/

theorem memRead_of_gt {a n : Nat} (h : s.flen.toNat < a + n) : memRead s a n = raise .frameTooShort := by
  simp only [memRead, memReadOctets, checkWindow_of_gt h]
  rfl

theorem memWrite_of_gt {a n v : Nat} (h : s.flen.toNat < a + n) : memWrite s a n v = raise .frameTooShort := by
  simp only [memWrite, memWriteOctets, length_beOctets, checkWindow_of_gt h]
  rfl

/-- A load that leaves the window raises (20_memory.md R64). -/
theorem loadBody_of_gt {n : Nat} {rd ra : Reg} {imm : Byte} (h : s.flen.toNat < effAddr s ra imm + n) :
    loadBody n rd ra imm s = raise .frameTooShort := by
  rw [loadBody, memRead_of_gt h]
  rfl

/-- A store of a value that passes its check but leaves the window raises (20_memory.md R64). -/
theorem storeBody_of_gt {n v : Nat} {carrier : Nat → Except Stop Nat} {rb ra : Reg} {imm : Byte}
    (hv : carrier (s.reg rb) = .ok v) (h : s.flen.toNat < effAddr s ra imm + n) :
    storeBody n carrier rb ra imm s = raise .frameTooShort := by
  rw [storeBody, hv]
  exact memWrite_of_gt h

/-! ### Loads and stores inside the window -/

theorem oct_of_lt {v : Nat} (h : v < 256) : oct v = .ok v := if_pos h

theorem u16_of_lt {v : Nat} (h : v < 65536) : u16 v = .ok v := if_pos h

/-- A load of written octets inside the window gets their big-endian value. -/
theorem loadBody_of_holds {p : List Byte} {rd ra : Reg} {imm : Byte} (hp : holds s.fb (effAddr s ra imm) p)
    (hw : effAddr s ra imm + p.length ≤ s.flen.toNat) :
    loadBody p.length rd ra imm s = .ok (s.setReg rd (BitVec.ofNat 32 (beNat p))) :=
  loadBody_eq_ok.mpr ⟨beNat p, memRead_of_holds hw hp, rfl⟩

/-- Four octets are read as the word they make together. -/
theorem beNat_quad (o0 o1 o2 o3 : Byte) : beNat [o0, o1, o2, o3] = (o0 ++ o1 ++ o2 ++ o3).toNat := by
  have hsnoc : ∀ {n : Nat} (x : BitVec n) (o : Byte), (x ++ o).toNat = x.toNat * 256 + o.toNat := by
    intro n x o
    rw [BitVec.toNat_append, ← Nat.shiftLeft_add_eq_or_of_lt o.isLt, Nat.shiftLeft_eq]
  simp [beNat, hsnoc]

/-! ### AP.DLEN -/

/-- A payload's length class is the one that the cases of 45_apdu.md R201 fix. -/
theorem dataLength_eq_of_lengthClassIs {n p0 c : Nat} (h : lengthClassIs n p0 c) : dataLength n p0 = c := by
  unfold lengthClassIs at h
  unfold dataLength
  split_ifs <;> omega

/-- AP.DLEN inside the window; of the payload only the first octet need be written, if it has one (45_apdu.md R202). -/
theorem exec_apDlen_of_le {rd ra rb : Reg} {p0 : Byte} (hw : s.reg ra + s.reg rb ≤ s.flen.toNat)
    (hp : 1 ≤ s.reg rb → s.fb.readByte (s.reg ra) = some p0) :
    exec (.apDlen rd ra rb) s = .next (Claims.written s rd (BitVec.ofNat 32 (dataLength (s.reg rb) p0.toNat))) := by
  by_cases hn : 1 ≤ s.reg rb
  · have hread : memRead s (s.reg ra) 1 = .ok p0.toNat := memRead_of_readByte (by omega) (hp hn)
    simp only [exec, execApDlen, checkWindow_of_le hw, if_pos hn, hread]
    rfl
  · have hempty : dataLength (s.reg rb) p0.toNat = dataLength (s.reg rb) 0 := by
      simp [dataLength, show s.reg rb = 0 by omega]
    rw [hempty]
    simp only [exec, execApDlen, checkWindow_of_le hw, if_neg hn]
    rfl

/-- AP.DLEN of a range that leaves the window, empty ranges included (20_memory.md R64). -/
theorem exec_apDlen_of_gt {rd ra rb : Reg} (h : s.flen.toNat < s.reg ra + s.reg rb) :
    exec (.apDlen rd ra rb) s = .next (raised s 5 (encode (.apDlen rd ra rb))) := by
  simp only [exec, execApDlen, checkWindow_of_gt h]
  rfl

/-! ### AP.WR -/

/-- A payload of 2, 3 or at least 5 octets is stored as it is. -/
theorem apWrOctets_of_long {p : List Byte} {p0 off : Nat} (h1 : p.length ≠ 1) (h4 : p.length ≠ 4) :
    apWrOctets s p p0 off = .ok p := by
  simp [apWrOctets, h1, h4]

theorem apWrDest_of_lt {n p0 off : Nat} (h4 : n ≠ 4) (h : p0 < 0x3F) : apWrDest n p0 off = off := by
  simp [apWrDest, h4, h]

theorem apWrDest_of_ge {n p0 off : Nat} (h : 0x3F ≤ p0) : apWrDest n p0 off = off + 1 := by
  simp [apWrDest, h]

/-- AP.WR of a written payload inside the window stores what `apWrOctets` makes of it, the payload being read before
the first write (20_memory.md R68). -/
theorem apWrBody_of_holds {ra rb rc : Reg} {p q : List Byte} (hlen : p.length = s.reg rb) (hne : p.length ≠ 0)
    (hpw : s.reg ra + p.length ≤ s.flen.toNat) (hp : holds s.fb (s.reg ra) p)
    (hq : apWrOctets s p (p.headD 0).toNat (s.reg rc) = .ok q)
    (hqw : apWrDest p.length (p.headD 0).toNat (s.reg rc) + q.length ≤ s.flen.toNat) :
    apWrBody ra rb rc s =
      .ok { s with fb := s.fb.writeOctets (apWrDest p.length (p.headD 0).toNat (s.reg rc)) q } := by
  have hread : memReadOctets s (s.reg ra) p.length = .ok p :=
    memReadOctets_eq_ok.mpr ⟨hpw, Memory.readOctets_eq_ok.mpr ⟨rfl, hp⟩⟩
  rw [hlen] at hread hne hqw ⊢
  exact apWrBody_eq_ok.mpr ⟨p, hread, .inr ⟨hne, q, hq, memWriteOctets_eq_ok.mpr ⟨hqw, rfl⟩⟩⟩

end Sys2Proof.Machine
end

section
/-! SUPPORT. The model's DPT9 encoder and DPT.ENC's conversions as the rules state them, on rationals and by division
(46_dpt9.md R225 to R227; 47_dpt_general.md R250 to R278). -/

namespace Sys2Proof.Machine

open Sys2Proof.Claims

/-! ### Rounding -/

/-- Rounding is symmetric about 0. -/
theorem roundsTo_neg {mode : Rounding} {t : ℚ} {M : Int} (h : roundsTo mode t M) : roundsTo mode (-t) (-M) := by
  have hdist : |((-M : Int) : ℚ) - -t| = |(M : ℚ) - t| := by
    rw [Int.cast_neg, neg_sub_neg, abs_sub_comm]
  have habs : |((-M : Int) : ℚ)| = |(M : ℚ)| := by rw [Int.cast_neg, abs_neg]
  cases mode with
  | nearestAway => simpa only [roundsTo, hdist, habs, abs_neg] using h
  | nearestEven => simpa only [roundsTo, hdist, even_neg] using h
  | towardZero => simpa only [roundsTo, habs, abs_neg, Int.cast_neg, neg_mul_neg] using h

/-- Two different integers within one half of `t` are the two neighbours of a tie. -/
theorem tie_of_lt {t : ℚ} {M M' : Int} (h : |(M : ℚ) - t| ≤ 1 / 2) (h' : |(M' : ℚ) - t| ≤ 1 / 2) (hlt : M < M') :
    M' = M + 1 ∧ (M : ℚ) = t - 1 / 2 ∧ (M' : ℚ) = t + 1 / 2 := by
  have hlow : -(1 / 2) ≤ (M : ℚ) - t := (abs_le.mp h).1
  have hhigh : (M' : ℚ) - t ≤ 1 / 2 := (abs_le.mp h').2
  have hge : (M : ℚ) + 1 ≤ M' := by exact_mod_cast hlt
  refine ⟨?_, by linarith, by linarith⟩
  exact_mod_cast (by linarith : (M' : ℚ) = M + 1)

/-- Rounding to the nearest never accepts two neighbours: at a tie only one of them meets the mode's condition. -/
theorem not_lt_of_roundsTo {mode : Rounding} {t : ℚ} {M M' : Int} (hmode : mode ≠ .towardZero)
    (h : roundsTo mode t M) (h' : roundsTo mode t M') : ¬ M < M' := by
  intro hlt
  cases mode with
  | nearestAway =>
    obtain ⟨hnear, haway⟩ := h
    obtain ⟨hnear', haway'⟩ := h'
    obtain ⟨hnext, hlow, hhigh⟩ := tie_of_lt hnear hnear' hlt
    have hsq : t ^ 2 < (t - 1 / 2) ^ 2 := sq_lt_sq.mpr (hlow ▸ haway (by rw [hlow]; norm_num))
    have hsq' : t ^ 2 < (t + 1 / 2) ^ 2 := sq_lt_sq.mpr (hhigh ▸ haway' (by rw [hhigh]; norm_num))
    have hneg : (M : ℚ) < 0 := by linarith
    have hpos : (0 : ℚ) < M' := by linarith
    norm_cast at hneg hpos
    omega
  | nearestEven =>
    obtain ⟨hnear, heven⟩ := h
    obtain ⟨hnear', heven'⟩ := h'
    obtain ⟨rfl, hlow, hhigh⟩ := tie_of_lt hnear hnear' hlt
    have hodd : ¬ Even (M + 1) := Int.even_add_one.not.mpr (not_not.mpr (heven (by rw [hlow]; norm_num)))
    exact hodd (heven' (by rw [hhigh]; norm_num))
  | towardZero => exact hmode rfl

/-- Rounding toward zero fixes the magnitude, and unless that is 0 the sign. -/
theorem roundsTo_towardZero_unique {t : ℚ} {M M' : Int} (h : roundsTo .towardZero t M)
    (h' : roundsTo .towardZero t M') : M = M' := by
  obtain ⟨hle, hgt, hsign⟩ := h
  obtain ⟨hle', hgt', hsign'⟩ := h'
  have hless : |M| < |M'| + 1 := by exact_mod_cast hle.trans_lt hgt'
  have hless' : |M'| < |M| + 1 := by exact_mod_cast hle'.trans_lt hgt
  obtain heq | hopp := abs_eq_abs.mp (show |M| = |M'| by omega)
  · exact heq
  · have hprod : (M' : ℚ) * t = 0 := by
      rw [hopp, Int.cast_neg] at hsign
      linarith
    obtain hM | ht := mul_eq_zero.mp hprod
    · have hzero : M' = 0 := by exact_mod_cast hM
      omega
    · have hzero : M' = 0 := by simpa [ht] using hle'
      omega

/-- A rational rounds to one integer. -/
theorem roundsTo_unique {mode : Rounding} {t : ℚ} {M M' : Int} (h : roundsTo mode t M) (h' : roundsTo mode t M') :
    M = M' := by
  by_cases hmode : mode = .towardZero
  · subst hmode
    exact roundsTo_towardZero_unique h h'
  · have hnot := not_lt_of_roundsTo hmode h h'
    have hnot' := not_lt_of_roundsTo hmode h' h
    omega

/-- `q + f` rounds down to `q` toward zero, and to the nearest if `f` is below one half or the mode takes this side of
a tie. -/
theorem roundsTo_add_of_le {mode : Rounding} (q : Nat) {f : ℚ} (h0 : 0 ≤ f) (h1 : f < 1)
    (hf : mode ≠ .towardZero → f < 1 / 2 ∨ f = 1 / 2 ∧ mode = .nearestEven ∧ Even q) :
    roundsTo mode (q + f) q := by
  have hdist : |((q : Int) : ℚ) - (q + f)| = f := by
    rw [Int.cast_natCast, sub_add_cancel_left, abs_neg, abs_of_nonneg h0]
  cases mode with
  | nearestAway =>
    have hlt : f < 1 / 2 := (hf (by decide)).resolve_right (by simp)
    exact ⟨hdist.trans_le hlt.le, fun htie => absurd (hdist.symm.trans htie) hlt.ne⟩
  | nearestEven =>
    obtain hlt | ⟨heq, _, heven⟩ := hf (by decide)
    · exact ⟨hdist.trans_le hlt.le, fun htie => absurd (hdist.symm.trans htie) hlt.ne⟩
    · exact ⟨hdist.trans_le heq.le, fun _ => (Int.even_coe_nat q).mpr heven⟩
  | towardZero =>
    have hq : (0 : ℚ) ≤ q := Nat.cast_nonneg q
    simp only [roundsTo, Int.cast_natCast, abs_of_nonneg hq, abs_of_nonneg (add_nonneg hq h0)]
    exact ⟨by linarith, by linarith, by positivity⟩

/-- To the nearest, `q + f` rounds up to `q + 1` if `f` is at least one half and at a tie the mode takes this side. -/
theorem roundsTo_add_of_ge {mode : Rounding} (q : Nat) {f : ℚ} (hmode : mode ≠ .towardZero) (h1 : f < 1)
    (hf : 1 / 2 ≤ f) (htie : f = 1 / 2 → mode = .nearestEven → Even (q + 1)) :
    roundsTo mode (q + f) (q + 1 : Nat) := by
  have hdist : |((q + 1 : Nat) : Int) - ((q : ℚ) + f)| = 1 - f := by
    rw [Int.cast_natCast, Nat.cast_succ, add_sub_add_left_eq_sub, abs_of_pos (by linarith)]
  have hnear : 1 - f ≤ 1 / 2 := by linarith
  refine match mode with
  | .nearestAway => ⟨hdist.trans_le hnear, fun _ => ?_⟩
  | .nearestEven => ⟨hdist.trans_le hnear, fun heq => ?_⟩
  | .towardZero => absurd rfl hmode
  · have hq : (0 : ℚ) ≤ q := Nat.cast_nonneg q
    rw [abs_of_nonneg (by linarith), Int.cast_natCast, Nat.abs_cast, Nat.cast_succ]
    linarith
  · exact (Int.even_coe_nat _).mpr (htie (by linarith) rfl)

/-- A fraction of naturals is its integer quotient and a fraction `f` below 1, which lies to one half as twice the
remainder to the denominator. -/
theorem exists_fraction (n : Nat) {d : Nat} (hd : 0 < d) :
    ∃ f : ℚ, (n : ℚ) / d = (n / d : Nat) + f ∧ 0 ≤ f ∧ f < 1 ∧
      (2 * (n % d) < d ↔ f < 1 / 2) ∧ (d < 2 * (n % d) ↔ 1 / 2 < f) := by
  have hdq : (0 : ℚ) < d := by exact_mod_cast hd
  refine ⟨(n % d : Nat) / d, ?split, by positivity, ?lt_one, ?lt_half, ?half_lt⟩
  case split =>
    rw [div_eq_iff hdq.ne', add_mul, div_mul_cancel₀ _ hdq.ne', mul_comm]
    exact_mod_cast (Nat.div_add_mod n d).symm
  case lt_one =>
    rw [div_lt_one hdq]
    exact_mod_cast Nat.mod_lt n hd
  case lt_half =>
    rw [div_lt_div_iff₀ hdq two_pos, one_mul, mul_comm]
    exact_mod_cast Iff.rfl
  case half_lt =>
    rw [div_lt_div_iff₀ two_pos hdq, one_mul, mul_comm _ (2 : ℚ)]
    exact_mod_cast Iff.rfl

/-- The model's rounding of a fraction of naturals, from its integer quotient and remainder. -/
theorem roundsTo_d9Round_natCast (mode : Rounding) (n : Nat) {d : Nat} (hd : 0 < d) :
    roundsTo mode ((n : ℚ) / d) (d9Round mode n d) := by
  obtain ⟨f, hsplit, h0, h1, hhalf, hhalf'⟩ := exists_fraction n hd
  have hpos : ¬ (n : Int) < 0 := by omega
  rw [hsplit]
  cases mode with
  | nearestAway =>
    simp only [d9Round, Int.natAbs_natCast, if_neg hpos]
    split_ifs with hr
    · exact roundsTo_add_of_ge _ (by decide) h1 (not_lt.mp (hhalf.not.mp (Nat.not_lt.mpr hr))) (by simp)
    · exact roundsTo_add_of_le _ h0 h1 fun _ => .inl (hhalf.mp (Nat.lt_of_not_le hr))
  | nearestEven =>
    simp only [d9Round, Int.natAbs_natCast, if_neg hpos]
    split_ifs with hr hr'
    · exact roundsTo_add_of_le _ h0 h1 fun _ => .inl (hhalf.mp hr)
    · have hgt := hhalf'.mp hr'
      exact roundsTo_add_of_ge _ (by decide) h1 hgt.le fun heq => absurd heq hgt.ne'
    · have heq : f = 1 / 2 := le_antisymm (not_lt.mp (hhalf'.not.mp hr')) (not_lt.mp (hhalf.not.mp hr))
      obtain heven | hodd := Nat.even_or_odd (n / d)
      · have hmod : ((n / d : Nat) : Int) % 2 = 0 := by exact_mod_cast Nat.even_iff.mp heven
        rw [hmod, add_zero]
        exact roundsTo_add_of_le _ h0 h1 fun _ => .inr ⟨heq, rfl, heven⟩
      · have hmod : ((n / d : Nat) : Int) % 2 = 1 := by exact_mod_cast Nat.odd_iff.mp hodd
        rw [hmod]
        exact roundsTo_add_of_ge _ (by decide) h1 heq.ge fun _ _ => hodd.add_one
  | towardZero =>
    simp only [d9Round, Int.natAbs_natCast, if_neg hpos]
    exact roundsTo_add_of_le _ h0 h1 fun hne => absurd rfl hne

theorem d9Round_neg (mode : Rounding) {n : Nat} (d : Nat) (hn : n ≠ 0) :
    d9Round mode (-(n : Int)) d = -d9Round mode n d := by
  have hneg : -(n : Int) < 0 := by omega
  have hpos : ¬ (n : Int) < 0 := by omega
  simp only [d9Round, Int.natAbs_neg, if_pos hneg, if_neg hpos]

/-- The model's rounding is the rounding of the rational (46_dpt9.md R226). -/
theorem roundsTo_d9Round (mode : Rounding) (num : Int) {d : Nat} (hd : 0 < d) :
    roundsTo mode ((num : ℚ) / d) (d9Round mode num d) := by
  obtain ⟨n, rfl | rfl⟩ := num.eq_nat_or_neg
  · exact roundsTo_d9Round_natCast mode n hd
  · by_cases hn : n = 0
    · simpa [hn] using roundsTo_d9Round_natCast mode 0 hd
    · rw [d9Round_neg mode d hn, Int.cast_neg, neg_div]
      exact roundsTo_neg (roundsTo_d9Round_natCast mode n hd)

/-! ### The word of a rational -/

theorem d9Fits_iff {num : Int} {den E : Nat} (hd : 0 < den) :
    d9Fits num den E = true ↔ d9FitsAt ((num : ℚ) / den) E := by
  have hpos : (0 : ℚ) < (den * 2 ^ E : Nat) := by exact_mod_cast Nat.mul_pos hd (Nat.two_pow_pos E)
  have hquot : (num : ℚ) / den / 2 ^ E = num / (den * 2 ^ E : Nat) := by rw [div_div]; push_cast; rfl
  rw [d9Fits, decide_eq_true_iff, d9FitsAt, hquot, le_div_iff₀ hpos, div_le_iff₀ hpos]
  norm_cast

/-- The exponent search finds the smallest exponent that fits (46_dpt9.md R225). -/
theorem d9Search_eq_some {num : Int} {den E : Nat} (hd : 0 < den) :
    d9Search num den = some E ↔
      E ≤ 15 ∧ d9FitsAt ((num : ℚ) / den) E ∧ ∀ E', E' < E → ¬ d9FitsAt ((num : ℚ) / den) E' := by
  simp only [d9Search, List.find?_range_eq_some, ← d9Fits_iff hd, List.mem_range, Bool.not_eq_true', Bool.not_eq_true]
  rw [and_left_comm, Nat.lt_succ_iff]

/-- The fields of a word stand side by side (46_dpt9.md R227). -/
theorem d9Word_eq {M : Int} {E : Nat} (hE : E ≤ 15) :
    d9Word M E = (if M < 0 then 32768 else 0) + 2048 * E + (M % 2048).toNat := by
  have hM : (M % 2048).toNat < 2 ^ 11 := by omega
  have hEM : E <<< 11 + (M % 2048).toNat < 2 ^ 15 := by rw [Nat.shiftLeft_eq]; omega
  rw [d9Word, Nat.or_assoc, ← Nat.shiftLeft_add_eq_or_of_lt hM, ← Nat.shiftLeft_add_eq_or_of_lt hEM, ← Nat.add_assoc]
  simp only [Nat.shiftLeft_eq]
  split <;> omega

/-- The model's encoder gives the word that 46_dpt9.md R225 to R227 fix, and gives one only where they do. -/
theorem d9Encode_eq_ok_iff {mode : Rounding} {num : Int} {den w : Nat} (hd : 0 < den) :
    d9Encode mode num den = .ok w ↔ d9Encodes mode ((num : ℚ) / den) w := by
  have hround : ∀ E, roundsTo mode ((num : ℚ) / den / 2 ^ E) (d9Round mode num (den * 2 ^ E)) := by
    intro E
    have hr := roundsTo_d9Round mode num (Nat.mul_pos hd (Nat.two_pow_pos E))
    rw [div_div]
    exact_mod_cast hr
  simp only [d9Encode_eq_ok, d9Search_eq_some hd]
  constructor
  · rintro ⟨E, ⟨hE, hfits, hleast⟩, rfl⟩
    exact ⟨E, _, hE, hfits, hleast, hround E, d9Word_eq hE⟩
  · rintro ⟨E, M, hE, hfits, hleast, hM, rfl⟩
    exact ⟨E, ⟨hE, hfits, hleast⟩, by rw [← roundsTo_unique hM (hround E), d9Word_eq hE]⟩

/-! ### Encoding a datapoint value -/

/-- The signed reading of a register (00_scope.md R9). -/
theorem toS32_toNat (v : Word) : toS32 v.toNat = v.toInt := by
  have hsign : bits v.toNat 31 31 = 1 ↔ ¬ 2 * v.toNat < 2 ^ 32 := by
    simp only [bits, Nat.shiftRight_eq_div_pow]
    omega
  rw [toS32, sext, BitVec.toInt_eq_toNat_cond]
  simp only [hsign, ite_not]
  rfl

/-- The octets by shifts are those by division (20_memory.md R60). -/
theorem beOctets_eq_octets (n v : Nat) : beOctets n v = octets n v := by
  induction n with
  | zero => rfl
  | succ n ih =>
    have hhead : v >>> (8 * n) = v / 256 ^ n := by rw [Nat.shiftRight_eq_div_pow, Nat.pow_mul]
    have htail : ∀ k, n - 1 - k = n - (k + 1) := by omega
    rw [beOctets, ih, hhead, octets, octets, List.range_succ_eq_map]
    simp [htail]

/-- The low bits of a register are those of its signed value. -/
theorem toInt_emod_two_pow (v : Word) {n : Nat} (hn : n ≤ 32) : v.toInt % 2 ^ n = (v.toNat % 2 ^ n : Nat) := by
  have hdvd : (2 ^ n : Int) ∣ 2 ^ 32 := pow_dvd_pow 2 hn
  have hword : v.toInt % 2 ^ 32 = v.toNat := by rw [BitVec.toInt_eq_toNat_cond]; split <;> omega
  rw [← Int.emod_emod_of_dvd _ hdvd, hword]
  push_cast
  rfl

/-- A signed value is checked against the n-bit range and stored modulo 2^n (47_dpt_general.md R260, R264). -/
theorem encodeSigned_eq_ok {n : Nat} (hn : n ≤ 32) {v : Word} {o : Nat} :
    encodeSigned n v.toNat = .ok o ↔
      -(2 ^ (n - 1)) ≤ v.toInt ∧ v.toInt ≤ 2 ^ (n - 1) - 1 ∧ o = v.toNat % 2 ^ n := by
  simp only [encodeSigned, toS32_toNat, toInt_emod_two_pow v hn, Int.toNat_natCast]
  split_ifs
  · simp only [raise_eq, reduceCtorEq, false_iff]
    omega
  · simp only [Except.ok.injEq]
    omega

/-- A date triple of three octets is checked field by field (47_dpt_general.md R270). -/
theorem checkDate_eq_ok {t o : Nat} (h : t < 2 ^ 24) : checkDate t = .ok o ↔ isDate t ∧ o = t := by
  have hday : bits t 23 16 = t / 65536 := by simp only [bits, Nat.shiftRight_eq_div_pow]; omega
  have hmonth : bits t 15 8 = t / 256 % 256 := by simp only [bits, Nat.shiftRight_eq_div_pow]; omega
  have hyear : bits t 7 0 = t % 256 := by simp [bits]
  simp only [checkDate, isDate, hday, hmonth, hyear]
  split
  · simp only [raise_eq, reduceCtorEq, false_iff]
    omega
  · simp only [Except.ok.injEq]
    omega

/-- Masking works octet by octet. -/
theorem and_eq_octetwise (x y : Nat) : x &&& y = (x / 256 &&& y / 256) * 256 + (x % 256 &&& y % 256) := by
  have hdiv : (x &&& y) / 256 = x / 256 &&& y / 256 := Nat.and_div_two_pow (n := 8)
  have hmod : (x &&& y) % 256 = x % 256 &&& y % 256 := Nat.and_mod_two_pow (n := 8)
  rw [← hdiv, ← hmod, Nat.div_add_mod']

/-- The time mask takes hour, minute and second modulo 32, 64 and 64 (47_dpt_general.md R268). -/
theorem and_timeMask (t : Nat) : t &&& 0x1F3F3F = maskedTime t := by
  have hhour : t / 256 / 256 &&& 0x1F = t / 256 / 256 % 32 := Nat.and_two_pow_sub_one_eq_mod _ 5
  have hminute : t / 256 % 256 &&& 0x3F = t / 256 % 256 % 64 := Nat.and_two_pow_sub_one_eq_mod _ 6
  have hsecond : t % 256 &&& 0x3F = t % 256 % 64 := Nat.and_two_pow_sub_one_eq_mod _ 6
  rw [and_eq_octetwise, and_eq_octetwise (t / 256)]
  simp only [Nat.reduceDiv, Nat.reduceMod, hhour, hminute, hsecond, maskedTime]
  omega

theorem map_eq_ok {α β : Type} {x : Except Stop α} {f : α → β} {b : β} :
    x.map f = .ok b ↔ ∃ a, x = .ok a ∧ f a = b := by
  cases x <;> simp [Except.map]

/-- DPT.ENC's conversion gives the number that 47_dpt_general.md R254 to R278 fix, and gives one only where they do. -/
theorem dptEncode_eq_ok {mode : Rounding} {v : Word} {o : Nat} {d : Dpt} :
    dptEncode mode v.toNat d = .ok o ↔ encodesAs mode v o d := by
  cases d with
  | bool | dimming | unsigned8 | unsigned16 => exact atMost_eq_ok
  | rgb => exact u24_eq_ok
  | signed8 => exact encodeSigned_eq_ok (by decide)
  | signed16 => exact encodeSigned_eq_ok (by decide)
  | unsigned32 | signed32 | float32 => exact ⟨fun h => (Except.ok.inj h).symm, fun h => congrArg _ h.symm⟩
  | float16 =>
    have hquot : (v.toInt : ℚ) = v.toInt / (1 : Nat) := by simp
    rw [dptEncode, encodesAs, toS32_toNat, hquot]
    exact d9Encode_eq_ok_iff one_pos
  | time =>
    refine map_eq_ok.trans ⟨?_, ?_⟩
    · rintro ⟨t, hu, rfl⟩
      obtain ⟨h, rfl⟩ := u24_eq_ok.mp hu
      exact ⟨h, and_timeMask _⟩
    · rintro ⟨h, rfl⟩
      exact ⟨_, u24_eq_ok.mpr ⟨h, rfl⟩, and_timeMask _⟩
  | date =>
    refine bind_eq_ok.trans ⟨?_, ?_⟩
    · rintro ⟨t, hu, hc⟩
      obtain ⟨h, rfl⟩ := u24_eq_ok.mp hu
      exact ⟨h, (checkDate_eq_ok h).mp hc⟩
    · rintro ⟨h, hc⟩
      exact ⟨_, u24_eq_ok.mpr ⟨h, rfl⟩, (checkDate_eq_ok h).mpr hc⟩

theorem exec_encodeOf (d : Dpt) (rd ra rb : Reg) (s : State) :
    exec (encodeOf d rd ra rb) s = finish (encodeOf d rd ra rb) s (dptEncBody d rd ra rb s) := by
  cases d <;> rfl

theorem dptWidth_eq_widthOf (d : Dpt) : dptWidth d = widthOf d := by cases d <;> rfl

end Sys2Proof.Machine
end

section
/-! The obligations of 20_memory.md. -/

namespace Sys2Proof.Machine

open Sys2Proof.Claims

/-- Settles O15: a body stops without raising only at an octet of the window that nothing has written, and `finish`
names the command. -/
theorem refusalNamesAnUnwrittenOctet : Obligations.RefusalNamesAnUnwrittenOctet := by
  unfold Obligations.RefusalNamesAnUnwrittenOctet
  exact fun _ _ _ h => exec_eq_refused h

/-- Settles O19: the frame of a completed command's writes; an error writes no octet. -/
theorem otherCommandsKeepTheFrameBuffer : Obligations.OtherCommandsKeepTheFrameBuffer := by
  unfold Obligations.OtherCommandsKeepTheFrameBuffer
  intro i s t hi h a
  rcases exec_eq_next h with ⟨u, hu, rfl⟩ | ⟨e, rfl⟩
  · rw [State.complete_fb, hu.fb_eq_of_not_stores hi]
  · rfl

/-- Settles O27: each load gets the big-endian value of its octets, which is the word they make together. -/
theorem loadsAreBigEndian : Obligations.LoadsAreBigEndian := by
  unfold Obligations.LoadsAreBigEndian
  intro s rd ra imm o0 o1 o2 o3
  refine ⟨fun hp hw => ?ldo, fun hp hw => ?ld16, fun hp hw => ?ld32⟩
  case ldo =>
    have hv : BitVec.ofNat 32 (beNat [o0]) = o0.setWidth 32 := by simp [beNat]
    exact hv ▸ finish_of_ok (loadBody_of_holds hp hw)
  case ld16 =>
    have hv : BitVec.ofNat 32 (beNat [o0, o1]) = (o0 ++ o1).setWidth 32 := by rw [beNat_pair, BitVec.ofNat_toNat]
    exact hv ▸ finish_of_ok (loadBody_of_holds hp hw)
  case ld32 =>
    have hv : BitVec.ofNat 32 (beNat [o0, o1, o2, o3]) = o0 ++ o1 ++ o2 ++ o3 := by
      rw [beNat_quad, BitVec.ofNat_toNat, BitVec.setWidth_eq]
    exact hv ▸ finish_of_ok (loadBody_of_holds hp hw)

/-- Settles O29: a value that fits passes its check, and `beOctets` of a register's value is the list of its octets by
definition. -/
theorem storesAreBigEndian : Obligations.StoresAreBigEndian := by
  unfold Obligations.StoresAreBigEndian
  intro s rb ra imm
  refine ⟨fun hv hw => ?sto, fun hv hw => ?st16, fun hw => ?st32⟩
  case sto => exact completesStoring_of_ok rfl (storeBody_eq_ok.mpr ⟨_, oct_of_lt hv, hw, rfl⟩)
  case st16 => exact completesStoring_of_ok rfl (storeBody_eq_ok.mpr ⟨_, u16_of_lt hv, hw, rfl⟩)
  case st32 => exact completesStoring_of_ok rfl (storeBody_eq_ok.mpr ⟨_, rfl, hw, rfl⟩)

/-- Settles O43: the window check decides whether the length class of `dataLength` or FrameTooShort is the result. -/
theorem apduLengthClassResult : Obligations.ApduLengthClassResult := by
  unfold Obligations.ApduLengthClassResult
  intro s rd ra rb
  refine ⟨fun p0 c hw hp hc => ?_, exec_apDlen_of_gt⟩
  rw [← dataLength_eq_of_lengthClassIs hc]
  exact exec_apDlen_of_le hw hp

/-- Settles O45: the octets stored are the payload as read, and its first octet decides where. -/
theorem apWrCopiesLongPayloads : Obligations.ApWrCopiesLongPayloads := by
  unfold Obligations.ApWrCopiesLongPayloads
  intro s ra rb rc p pb off hlen h2 h4 hpw hp
  have hbody := apWrBody_of_holds (rc := rc) hlen (by omega) hpw hp (apWrOctets_of_long (by omega) h4)
  constructor
  · intro h0 hw
    rw [apWrDest_of_lt h4 h0] at hbody
    exact completesStoring_of_ok rfl (hbody hw)
  · intro h0 hw
    rw [apWrDest_of_ge h0] at hbody
    exact completesStoring_of_ok rfl (hbody hw)

/-- Settles O55: the conversion gives the encoded number, and the window holds its octets. -/
theorem dptEncodeResults : Obligations.DptEncodeResults := by
  unfold Obligations.DptEncodeResults
  intro d s rd ra rb o ho hw
  rw [← dptWidth_eq_widthOf] at hw
  have hbody := (dptEncBody_eq_ok (rd := rd)).mpr ⟨o, dptEncode_eq_ok.mpr ho, hw, rfl⟩
  refine ⟨s.fb.writeOctets (s.reg rb) (octets (widthOf d) o), ?_, storedAt_writeOctets _ _ _⟩
  rw [exec_encodeOf, hbody, beOctets_eq_octets, dptWidth_eq_widthOf]
  rfl

/-- Settles O28: the window check is made on the unbounded sum, for a store after the check of the value. -/
theorem accessOutsideTheWindowRaises : Obligations.AccessOutsideTheWindowRaises := by
  unfold Obligations.AccessOutsideTheWindowRaises
  intro s r ra imm
  refine ⟨fun p hp hgt => ?_, fun hv hgt => finish_of_raise (storeBody_of_gt (oct_of_lt hv) hgt),
    fun hv hgt => finish_of_raise (storeBody_of_gt (u16_of_lt hv) hgt)⟩
  simp only [List.mem_cons, List.not_mem_nil, or_false] at hp
  rcases hp with rfl | rfl | rfl | rfl
  · exact finish_of_raise (loadBody_of_gt hgt)
  · exact finish_of_raise (loadBody_of_gt hgt)
  · exact finish_of_raise (loadBody_of_gt hgt)
  · exact finish_of_raise (storeBody_of_gt (v := s.reg r) rfl hgt)

end Sys2Proof.Machine
end

section
/-! SUPPORT. The decoder and the encoder (30_encoding.md R80 to R89): a word and its fields, and what the decoder
answers on the fields of a word. -/

namespace Sys2Proof

open Sys2Proof.Claims

/-! ### Words and their fields -/

/-- The bits from `lo` to `hi` stand above the bits below `lo`. -/
theorem bits_mul_add_mod (v lo hi : Nat) (h : lo ≤ hi) :
    bits v hi lo * 2 ^ lo + v % 2 ^ lo = v % 2 ^ (hi + 1) := by
  have hpow : 2 ^ (hi + 1) = 2 ^ lo * 2 ^ (hi - lo + 1) := by rw [← pow_add]; congr 1; omega
  rw [hpow, Nat.mod_mul, bits, Nat.shiftRight_eq_div_pow, Nat.mul_comm, Nat.add_comm]

/-- The fields of a word make it up (30_encoding.md R80). -/
theorem pack_fields (w : Word) : pack (fields w) = w := by
  have hop := bits_mul_add_mod w.toNat 24 31 (by decide)
  have hrd := bits_mul_add_mod w.toNat 20 23 (by decide)
  have hra := bits_mul_add_mod w.toNat 16 19 (by decide)
  have hrb := bits_mul_add_mod w.toNat 12 15 (by decide)
  have hrc := bits_mul_add_mod w.toNat 8 11 (by decide)
  have himm := bits_mul_add_mod w.toNat 0 7 (by decide)
  have hreg : ∀ hi lo, hi - lo = 3 → bits w.toNat hi lo % 16 = bits w.toNat hi lo := by
    intro hi lo h
    rw [bits, h]
    exact Nat.mod_mod _ _
  apply BitVec.eq_of_toNat_eq
  simp only [pack, fields, Fin.ofNat, BitVec.toNat_ofNat, hreg]
  omega

theorem fields_op (w : Word) : (fields w).op = w.toNat / 2 ^ 24 := by
  simp only [fields, bits, Nat.shiftRight_eq_div_pow]
  omega

theorem fields_imm_toNat (w : Word) : (fields w).imm.toNat = w.toNat % 256 := by
  simp [fields, bits]

/-- A command's word decodes as its fields do. -/
theorem decode_encode_eq_decodeFields (i : Instr) : decode (encode i) = decodeFields i.fields :=
  congrArg decodeFields (fields_pack i.fields (op_lt i))

/-! ### Unused fields -/

/-- The lowest bit of a field of format K (30_encoding.md R80). -/
def FieldName.lo : FieldName → Nat
  | .rd => 20
  | .ra => 16
  | .rb => 12
  | .rc => 8
  | .imm => 0

/-- The number of bits of a field of format K (30_encoding.md R80). -/
def FieldName.width : FieldName → Nat
  | .rd | .ra | .rb | .rc => 4
  | .imm => 8

/-- The word with exactly the bits of a field set. -/
def FieldName.mask (n : FieldName) : Word := BitVec.ofNat 32 ((2 ^ n.width - 1) <<< n.lo)

/-- The field holds zero. -/
def Fields.isZero (f : Fields) : FieldName → Prop
  | .rd => f.rd = 0
  | .ra => f.ra = 0
  | .rb => f.rb = 0
  | .rc => f.rc = 0
  | .imm => f.imm = 0

/-- The bits of the fields outside `used` (30_encoding.md R86). -/
def maskOutside (used : List FieldName) : Word :=
  (if used.contains .rd then 0 else FieldName.rd.mask) ||| (if used.contains .ra then 0 else FieldName.ra.mask) |||
  (if used.contains .rb then 0 else FieldName.rb.mask) ||| (if used.contains .rc then 0 else FieldName.rc.mask) |||
  (if used.contains .imm then 0 else FieldName.imm.mask)

/-- The `k` bits from bit `lo` upwards are zero under their mask exactly if the number they make is zero. -/
theorem and_shiftLeft_mask_eq_zero (v k lo : Nat) : v &&& (2 ^ k - 1) <<< lo = 0 ↔ (v >>> lo) % 2 ^ k = 0 := by
  have hshift : v &&& (2 ^ k - 1) <<< lo = ((v >>> lo) % 2 ^ k) <<< lo := by
    apply Nat.eq_of_testBit_eq
    intro i
    by_cases hi : lo ≤ i <;> simp [hi, Bool.and_comm]
  rw [hshift, Nat.shiftLeft_eq_zero_iff]

theorem FieldName.mask_toNat (n : FieldName) : n.mask.toNat = (2 ^ n.width - 1) <<< n.lo := by cases n <;> rfl

/-- A field of a word is zero exactly if the bits under its mask are. -/
theorem and_mask_eq_zero (w : Word) (n : FieldName) : w &&& n.mask = 0#32 ↔ (fields w).isZero n := by
  rw [← BitVec.toNat_inj, BitVec.toNat_and, FieldName.mask_toNat]
  refine (and_shiftLeft_mask_eq_zero _ _ _).trans ?_
  cases n with
  | rd | ra | rb | rc => simp [FieldName.lo, FieldName.width, Fields.isZero, fields, bits, Fin.ext_iff]
  | imm => simp [FieldName.lo, FieldName.width, Fields.isZero, fields, bits, ← BitVec.toNat_inj]

theorem and_ite_zero_eq_zero (w m : Word) (b : Bool) :
    (w &&& if b then 0 else m) = 0#32 ↔ b = true ∨ w &&& m = 0#32 := by
  cases b <;> simp

/-- The fields outside `used` are zero exactly if their bits are (30_encoding.md R86). -/
theorem unusedZero_fields_iff (w : Word) (used : List FieldName) :
    unusedZero (fields w) used = true ↔ w &&& maskOutside used = 0#32 := by
  simp only [unusedZero, maskOutside, BitVec.and_or_distrib_left, BitVec.or_eq_zero_iff, and_ite_zero_eq_zero,
    and_mask_eq_zero, Fields.isZero, Bool.and_eq_true, Bool.or_eq_true, beq_iff_eq]

/-- The fields `f` with those outside `used` set to zero. -/
def Fields.restrict (f : Fields) (used : List FieldName) : Fields where
  op := f.op
  rd := if used.contains .rd then f.rd else 0
  ra := if used.contains .ra then f.ra else 0
  rb := if used.contains .rb then f.rb else 0
  rc := if used.contains .rc then f.rc else 0
  imm := if used.contains .imm then f.imm else 0

theorem restrict_of_unusedZero {f : Fields} {used : List FieldName} (h : unusedZero f used = true) :
    f.restrict used = f := by
  simp only [unusedZero, Bool.and_eq_true, Bool.or_eq_true, beq_iff_eq, or_iff_not_imp_left] at h
  obtain ⟨⟨⟨⟨hrd, hra⟩, hrb⟩, hrc⟩, himm⟩ := h
  obtain ⟨op, rd, ra, rb, rc, imm⟩ := f
  simp only [Fields.restrict, Fields.mk.injEq, true_and, ite_eq_left_iff]
  exact ⟨fun h => (hrd h).symm, fun h => (hra h).symm, fun h => (hrb h).symm, fun h => (hrc h).symm,
    fun h => (himm h).symm⟩

/-! ### Bit ranges -/

/-- The parts of the octet of a bit range (30_encoding.md R82). -/
theorem bits_rangeImm : ∀ hi lo : Fin 8,
    bits (rangeImm hi lo).toNat 7 7 = 0 ∧ Fin.ofNat 8 (bits (rangeImm hi lo).toNat 6 4) = hi ∧
    bits (rangeImm hi lo).toNat 3 3 = 0 ∧ Fin.ofNat 8 (bits (rangeImm hi lo).toNat 2 0) = lo := by decide

/-- An octet with bits 7 and 3 clear is that of its bit range (30_encoding.md R82). -/
theorem rangeImm_bits {imm : Byte} (h7 : bits imm.toNat 7 7 = 0) (h3 : bits imm.toNat 3 3 = 0) :
    rangeImm (Fin.ofNat 8 (bits imm.toNat 6 4)) (Fin.ofNat 8 (bits imm.toNat 2 0)) = imm := by
  apply BitVec.eq_of_toNat_eq
  simp only [bits, Nat.shiftRight_eq_div_pow, rangeImm, Fin.ofNat, BitVec.toNat_ofNat] at h7 h3 ⊢
  omega

/-- A bit range with `hi` at least `lo` is read from its octet. -/
theorem decodeRange_rangeImm {hi lo : Fin 8} (h : lo ≤ hi) (k : Fin 8 → Fin 8 → Instr) :
    decodeRange (rangeImm hi lo) k = .ok (k hi lo) := by
  obtain ⟨h7, hhi, h3, hlo⟩ := bits_rangeImm hi lo
  simp only [decodeRange, hhi, hlo]
  exact if_pos ⟨h7, h3, h⟩

/-! ### Selectors outside the thirteen -/

theorem decodeDptEnc_of_not_defined {f : Fields} (h : f.imm.toNat ∉ definedSelectors) :
    decodeDptEnc f = .dptEncOther f.rd f.ra f.rb f.imm := by
  unfold decodeDptEnc
  split
  case h_14 => rfl
  all_goals simp [*, definedSelectors] at h

theorem decodeDptDec_of_not_defined {f : Fields} (h : f.imm.toNat ∉ definedSelectors) :
    decodeDptDec f = .dptDecOther f.rd f.ra f.rb f.imm := by
  unfold decodeDptDec
  split
  case h_14 => rfl
  all_goals simp [*, definedSelectors] at h

/-! ### From a command to its fields and back -/

/-- The decoder reads a well-formed command from its fields. -/
theorem decodeFields_instrFields {i : Instr} (h : i.wf = true) : decodeFields i.fields = .ok i := by
  cases i with
  | bfGet | bfSet => exact decodeRange_rangeImm (of_decide_eq_true h) _
  | dptEncOther =>
    exact congrArg Except.ok (decodeDptEnc_of_not_defined (by simpa [Instr.wf, Instr.fields] using h))
  | dptDecOther =>
    exact congrArg Except.ok (decodeDptDec_of_not_defined (by simpa [Instr.wf, Instr.fields] using h))
  | _ => rfl

/-! ### What a decoder answers -/

/-- What a decoder may answer on the fields `f`: a rejection where `illegal` holds, and elsewhere a well-formed command
with these fields. -/
def Answers (f : Fields) (illegal : Prop) : Except Reject Instr → Prop
  | .ok i => ¬ illegal ∧ i.wf = true ∧ i.fields = f
  | .error _ => illegal

theorem Answers.eq_error {f : Fields} {illegal : Prop} {r : Except Reject Instr} (h : Answers f illegal r)
    (hill : illegal) : ∃ e, r = .error e := by
  cases r with
  | ok i => exact absurd hill h.1
  | error e => exact ⟨e, rfl⟩

theorem Answers.eq_ok {f : Fields} {illegal : Prop} {r : Except Reject Instr} (h : Answers f illegal r)
    (hleg : ¬ illegal) : ∃ i, r = .ok i := by
  cases r with
  | ok i => exact ⟨i, rfl⟩
  | error e => exact absurd h hleg

/-- 30_encoding.md R87 but for (b): the opcode `op` is illegal, or the octet `imm` beside it. -/
def badCode (op imm : Nat) : Prop :=
  undefinedOp op ∨
  ((op = 0x10 ∨ op = 0x11) ∧ (imm.testBit 7 = true ∨ imm.testBit 3 = true ∨ imm / 16 % 8 < imm % 8)) ∨
  (op = 0x34 ∧ imm ∉ [0x00, 0x01, 0x02, 0x10, 0x11, 0x20, 0x21, 0x22]) ∨
  ((op = 0x02 ∨ op = 0x03) ∧ 5 < imm) ∨ (op = 0x03 ∧ imm ∈ [0, 2, 4, 5])

theorem illegalWord_iff (w : Word) :
    illegalWord w ↔ w &&& unusedBits (fields w).op ≠ 0 ∨ badCode (fields w).op (fields w).imm.toNat := by
  rw [fields_op, fields_imm_toNat]
  exact or_left_comm

/-- R87 (e). -/
theorem badCode_csrr (n : Nat) : badCode 0x02 n ↔ 5 < n := by simp [badCode, undefinedOp]

/-- R87 (e), (f). -/
theorem badCode_csrw (n : Nat) : badCode 0x03 n ↔ 5 < n ∨ n ∈ [0, 2, 4, 5] := by simp [badCode, undefinedOp]

/-- R87 (d). -/
theorem badCode_adGet (n : Nat) : badCode 0x34 n ↔ n ∉ [0x00, 0x01, 0x02, 0x10, 0x11, 0x20, 0x21, 0x22] := by
  simp [badCode, undefinedOp]

/-- R87 (c), in the terms of the decoder's check. -/
theorem badCode_range {op : Nat} (hop : op = 0x10 ∨ op = 0x11) (n : Nat) :
    badCode op n ↔
      ¬ (bits n 7 7 = 0 ∧ bits n 3 3 = 0 ∧ Fin.ofNat 8 (bits n 2 0) ≤ Fin.ofNat 8 (bits n 6 4)) := by
  have hbits : badCode op n ↔ n.testBit 7 = true ∨ n.testBit 3 = true ∨ n / 16 % 8 < n % 8 := by
    rcases hop with rfl | rfl <;> simp [badCode, undefinedOp]
  simp only [hbits, Nat.testBit_eq_decide_div_mod_eq, decide_eq_true_eq, bits, Nat.shiftRight_eq_div_pow, Fin.le_def,
    Fin.ofNat]
  omega

section
variable {w : Word} {op : Nat} {rd ra rb rc : Reg} {imm : Byte} {used : List FieldName}

/-- A row that gives one value of `imm` a command of its own. -/
theorem answers_of_imm_toNat {n : Nat} {i : Instr} (h : imm.toNat = n) (hbad : ¬ badCode op n) (hwf : i.wf = true)
    (hi : i.fields = ⟨op, rd, ra, rb, rc, BitVec.ofNat 8 n⟩) :
    Answers ⟨op, rd, ra, rb, rc, imm⟩ (badCode op imm.toNat) (.ok i) := by
  subst h
  exact ⟨hbad, hwf, by rw [hi, BitVec.ofNat_toNat, BitVec.setWidth_eq]⟩

/-- The check of a row's unused fields adds R87 (b) to what makes a word illegal. -/
theorem answers_onlyUses {r : Except Reject Instr} (hf : fields w = ⟨op, rd, ra, rb, rc, imm⟩)
    (hused : unusedBits op = maskOutside used)
    (hr : Answers (Fields.restrict ⟨op, rd, ra, rb, rc, imm⟩ used) (badCode op imm.toNat) r) :
    Answers ⟨op, rd, ra, rb, rc, imm⟩ (w &&& unusedBits op ≠ 0 ∨ badCode op imm.toNat)
      (onlyUses ⟨op, rd, ra, rb, rc, imm⟩ used r) := by
  have hmask := unusedZero_fields_iff w used
  rw [hf, ← hused] at hmask
  rw [onlyUses]
  split
  case isTrue hz =>
    rw [restrict_of_unusedZero hz] at hr
    cases r with
    | ok i =>
      obtain ⟨hbad, hi⟩ := hr
      exact ⟨not_or_intro (not_not_intro (hmask.mp hz)) hbad, hi⟩
    | error => exact .inr hr
  case isFalse hz => exact .inl (hmask.not.mp hz)

end

theorem answers_decodeCsrr (f : Fields) :
    Answers ⟨0x02, f.rd, 0, 0, 0, f.imm⟩ (badCode 0x02 f.imm.toNat) (decodeCsrr f) := by
  unfold decodeCsrr
  split
  case h_7 =>
    simp only [imp_false] at *
    exact (badCode_csrr _).mpr (by omega)
  all_goals exact answers_of_imm_toNat ‹_› ((badCode_csrr _).not.mpr (by decide)) rfl rfl

theorem answers_decodeCsrw (f : Fields) :
    Answers ⟨0x03, 0, f.ra, 0, 0, f.imm⟩ (badCode 0x03 f.imm.toNat) (decodeCsrw f) := by
  unfold decodeCsrw
  split
  case h_2 h | h_4 h => exact answers_of_imm_toNat h ((badCode_csrw _).not.mpr (by decide)) rfl rfl
  case h_7 =>
    simp only [imp_false] at *
    exact (badCode_csrw _).mpr (.inl (by omega))
  all_goals exact (badCode_csrw _).mpr (by simp [*])

theorem answers_decodeAdGet (f : Fields) :
    Answers ⟨0x34, f.rd, f.ra, 0, 0, f.imm⟩ (badCode 0x34 f.imm.toNat) (decodeAdGet f) := by
  unfold decodeAdGet
  split
  case h_9 =>
    simp only [imp_false] at *
    exact (badCode_adGet _).mpr (by simp [*])
  all_goals exact answers_of_imm_toNat ‹_› ((badCode_adGet _).not.mpr (by decide)) rfl rfl

/-- Every selector is legal (30_encoding.md R85). -/
theorem answers_decodeDptEnc (f : Fields) :
    Answers ⟨0x60, f.rd, f.ra, f.rb, 0, f.imm⟩ (badCode 0x60 f.imm.toNat) (.ok (decodeDptEnc f)) := by
  have hbad : ∀ n, ¬ badCode 0x60 n := by simp [badCode, undefinedOp]
  unfold decodeDptEnc
  split
  case h_14 =>
    simp only [imp_false] at *
    exact ⟨hbad _, by simp [Instr.wf, definedSelectors, *], rfl⟩
  all_goals exact answers_of_imm_toNat ‹_› (hbad _) rfl rfl

/-- Every selector is legal (30_encoding.md R85). -/
theorem answers_decodeDptDec (f : Fields) :
    Answers ⟨0x61, f.rd, f.ra, f.rb, 0, f.imm⟩ (badCode 0x61 f.imm.toNat) (.ok (decodeDptDec f)) := by
  have hbad : ∀ n, ¬ badCode 0x61 n := by simp [badCode, undefinedOp]
  unfold decodeDptDec
  split
  case h_14 =>
    simp only [imp_false] at *
    exact ⟨hbad _, by simp [Instr.wf, definedSelectors, *], rfl⟩
  all_goals exact answers_of_imm_toNat ‹_› (hbad _) rfl rfl

theorem answers_decodeRange {op : Nat} (hop : op = 0x10 ∨ op = 0x11) {rd ra rb rc : Reg} (imm : Byte)
    {k : Fin 8 → Fin 8 → Instr} (hwf : ∀ hi lo, (k hi lo).wf = decide (lo ≤ hi))
    (hk : ∀ hi lo, (k hi lo).fields = ⟨op, rd, ra, rb, rc, rangeImm hi lo⟩) :
    Answers ⟨op, rd, ra, rb, rc, imm⟩ (badCode op imm.toNat) (decodeRange imm k) := by
  rw [decodeRange]
  split
  case isTrue h =>
    obtain ⟨h7, h3, hle⟩ := h
    have hlegal := (badCode_range hop _).not.mpr (not_not_intro ⟨h7, h3, hle⟩)
    exact ⟨hlegal, (hwf _ _).trans (decide_eq_true hle), by rw [hk, rangeImm_bits h7 h3]⟩
  case isFalse h => exact (badCode_range hop _).mpr h

/-- The opcode map, row by row (30_encoding.md R83): the rows that read more than an opcode each have their lemma. -/
theorem answers_decodeFields {w : Word} {f : Fields} (hf : fields w = f) :
    Answers f (w &&& unusedBits f.op ≠ 0 ∨ badCode f.op f.imm.toNat) (decodeFields f) := by
  obtain ⟨op, rd, ra, rb, rc, imm⟩ := f
  simp only [decodeFields]
  split
  case h_3 => exact answers_onlyUses hf rfl (answers_decodeCsrr _)
  case h_4 => exact answers_onlyUses hf rfl (answers_decodeCsrw _)
  case h_11 => exact answers_onlyUses hf rfl (answers_decodeRange (.inl rfl) imm (fun _ _ => rfl) fun _ _ => rfl)
  case h_12 => exact answers_onlyUses hf rfl (answers_decodeRange (.inr rfl) imm (fun _ _ => rfl) fun _ _ => rfl)
  case h_30 => exact answers_onlyUses hf rfl (answers_decodeAdGet _)
  case h_37 => exact answers_onlyUses hf rfl (answers_decodeDptEnc _)
  case h_38 => exact answers_onlyUses hf rfl (answers_decodeDptDec _)
  case h_39 =>
    have hop : undefinedOp op := by
      simp only [imp_false] at *
      simp only [undefinedOp]
      omega
    exact .inr (.inl hop)
  all_goals exact answers_onlyUses hf rfl ⟨by simp [badCode, undefinedOp], rfl, rfl⟩

/-- The decoder rejects exactly the words of R87's list, and reads from every other word a well-formed command with the
word's fields (30_encoding.md R86, R87, R89). -/
theorem answers_decode (w : Word) : Answers (fields w) (illegalWord w) (decode w) := by
  rw [illegalWord_iff]
  exact answers_decodeFields rfl

end Sys2Proof
end

section
/-! The obligations of 30_encoding.md. -/

namespace Sys2Proof.Machine

open Sys2Proof.Claims

/-- Settles O1: a command's word has the command's fields, and the decoder reads the command from them. -/
theorem decodeOfEncodeIsIdentity : Obligations.DecodeOfEncodeIsIdentity := by
  unfold Obligations.DecodeOfEncodeIsIdentity
  exact fun i hi => (decode_encode_eq_decodeFields i).trans (decodeFields_instrFields hi)

/-- Settles O2: the command a word decodes to has the word's fields, and these make up the word. -/
theorem encodeOfDecodeIsIdentity : Obligations.EncodeOfDecodeIsIdentity := by
  unfold Obligations.EncodeOfDecodeIsIdentity
  intro w i h
  have hanswer := answers_decode w
  rw [h] at hanswer
  obtain ⟨-, hwf, hfields⟩ := hanswer
  exact ⟨hwf, by rw [encode, hfields, pack_fields]⟩

/-- Settles O4: the decoder rejects exactly the words of R87's list, and a word that decodes to NOP is NOP's word. -/
theorem illegalWordsRaiseIllegalCommand : Obligations.IllegalWordsRaiseIllegalCommand := by
  unfold Obligations.IllegalWordsRaiseIllegalCommand
  intro w s rest hs
  have hstep : step s = issueWord w { s with host := rest } := step_of_host_cons hs
  refine ⟨fun hillegal => ?_, fun hlegal => ?_, fun hnop => (encodeOfDecodeIsIdentity w .nop hnop).2.symm⟩
  · obtain ⟨e, he⟩ := (answers_decode w).eq_error hillegal
    rw [hstep, issueWord, he]
    rfl
  · obtain ⟨i, hi⟩ := (answers_decode w).eq_ok hlegal
    exact ⟨i, hi, hstep.trans (issueWord_of_decode hi)⟩

/-- Settles O3: the decoder, run on each of the sixteen words. -/
theorem wordsOfTheSpecDecode : Obligations.WordsOfTheSpecDecode := by
  unfold Obligations.WordsOfTheSpecDecode
  decide

end Sys2Proof.Machine
end

section
/-! SUPPORT. The frame of a store, and a command whose only write is a register (40_system_and_buffer.md R101, R104). -/

namespace Sys2Proof.Machine

variable {s t : State}

/-- A store, completed or raised, changes no octet outside its `n` octets at the effective address. -/
theorem readByte_of_finish_storeBody {i : Instr} {n a : Nat} {carrier : Nat → Except Stop Nat} {rb ra : Reg}
    {imm : Byte} (h : finish i s (storeBody n carrier rb ra imm s) = .next t)
    (ha : a < effAddr s ra imm ∨ effAddr s ra imm + n ≤ a) : t.fb.readByte a = s.fb.readByte a := by
  rcases finish_eq_next h with ⟨u, hu, rfl⟩ | ⟨e, _, rfl⟩
  · obtain ⟨v, _, _, rfl⟩ := storeBody_eq_ok.mp hu
    exact Memory.readByte_writeOctets_outside (by rwa [length_beOctets])
  · rfl

/-- A body whose only write is a register completes with that register written and LASTERR 0. -/
theorem finish_setReg (i : Instr) (s : State) (rd : Reg) (v : Word) :
    finish i s (.ok (s.setReg rd v)) = .next (Claims.written s rd v) := rfl

end Sys2Proof.Machine
end

section
/-! The obligations of 40_system_and_buffer.md. -/

namespace Sys2Proof.Machine

/-- Settles O20: each of the three stores has the body `storeBody` of its width. -/
theorem storesKeepOtherOctets : Obligations.StoresKeepOtherOctets := by
  unfold Obligations.StoresKeepOtherOctets
  intro rb ra imm s t p hp h a ha
  simp only [List.mem_cons, List.not_mem_nil, or_false] at hp
  rcases hp with rfl | rfl | rfl
  · exact readByte_of_finish_storeBody (n := 1) (carrier := oct) h ha
  · exact readByte_of_finish_storeBody (n := 2) (carrier := u16) h ha
  · exact readByte_of_finish_storeBody (n := 4) (carrier := .ok) h ha

/-- Settles O23: NOP has no write but the common completion; the number LI writes is its constant zero-extended. -/
theorem nopAndLoadImmediateResults : Obligations.NopAndLoadImmediateResults := by
  unfold Obligations.NopAndLoadImmediateResults
  intro s rd imm
  have hzext : BitVec.ofNat 32 imm.toNat = imm.setWidth 32 := BitVec.ofNat_toNat 32 imm
  refine ⟨finish_of_ok (i := .nop) (s := s) rfl, ?_⟩
  rw [← hzext]
  exact finish_setReg (.li rd imm) s rd _

end Sys2Proof.Machine
end

section
/-! SUPPORT. The bit-field functions bit by bit, and the commands that get and set a range of an octet
(41_bitfield.md R120 to R123). -/

namespace Sys2Proof.Machine

open Sys2Proof.Claims

/-! ### `bf_get` and `bf_set` -/

/-- The bits of a number of `n` bits from bit `n` upwards are 0. -/
theorem testBit_eq_false_of_lt_two_pow {v n k : Nat} (hv : v < 2 ^ n) (h : n ≤ k) : v.testBit k = false :=
  Nat.testBit_eq_false_of_lt (hv.trans_le (Nat.pow_le_pow_right two_pos h))

/-- The bits of `bf_get` are those of the range, moved down to bit 0. -/
theorem testBit_bfGetNat (o : Nat) {hi lo : Nat} (h : lo ≤ hi) (k : Nat) :
    (bfGetNat o hi lo).testBit k = (decide (lo + k ≤ hi) && o.testBit (lo + k)) := by
  have hwidth : k < hi - lo + 1 ↔ lo + k ≤ hi := by omega
  simp only [bfGetNat, bfWidth, Nat.testBit_and, Nat.testBit_shiftRight, Nat.testBit_two_pow_sub_one, hwidth,
    Bool.and_comm]

/-- `bf_get` delivers a value of the range's width. -/
theorem bfGetNat_lt (o hi lo : Nat) : bfGetNat o hi lo < 2 ^ (hi - lo + 1) :=
  Nat.and_lt_two_pow _ (Nat.sub_one_lt (Nat.two_pow_pos _).ne')

/-- The mask of a range has exactly the bits of the range. -/
theorem testBit_bfMask {hi lo : Nat} (h : lo ≤ hi) (k : Nat) :
    (bfMask hi lo).testBit k = decide (lo ≤ k ∧ k ≤ hi) := by
  have hwidth : lo ≤ k ∧ k - lo < hi - lo + 1 ↔ lo ≤ k ∧ k ≤ hi := by omega
  simp only [bfMask, bfWidth, Nat.testBit_shiftLeft, Nat.testBit_two_pow_sub_one, ge_iff_le,
    ← Bool.decide_and, hwidth]

/-- The bits of `bf_set`: in the range those of the value, moved up, and outside it those of the octet. -/
theorem testBit_bfSetNat {o hi lo v : Nat} (ho : o < 256) (h : lo ≤ hi) (h7 : hi ≤ 7) (hv : v < 2 ^ (hi - lo + 1))
    (k : Nat) : (bfSetNat o hi lo v).testBit k = if lo ≤ k ∧ k ≤ hi then v.testBit (k - lo) else o.testBit k := by
  have hoctet : (0xFF : Nat).testBit k = decide (k < 8) := Nat.testBit_two_pow_sub_one 8 k
  simp only [bfSetNat, Nat.testBit_or, Nat.testBit_and, Nat.testBit_xor, Nat.testBit_shiftLeft,
    testBit_bfMask h, hoctet]
  split_ifs with hin
  · have hk : k < 8 := by omega
    simp [hin, hk]
  · have hvalue : (decide (lo ≤ k) && v.testBit (k - lo)) = false := by
      by_cases hk : lo ≤ k
      · simp [testBit_eq_false_of_lt_two_pow hv (show hi - lo + 1 ≤ k - lo by omega)]
      · simp [hk]
    have hkept : (o.testBit k && decide (k < 8)) = o.testBit k := by
      by_cases hk : k < 8
      · simp [hk]
      · simp [testBit_eq_false_of_lt_two_pow (n := 8) ho (Nat.not_lt.mp hk)]
    simp [hin, hvalue, hkept]

/-- `bf_set` of an octet is an octet. -/
theorem bfSetNat_lt {o hi lo v : Nat} (ho : o < 256) (h : lo ≤ hi) (h7 : hi ≤ 7) (hv : v < 2 ^ (hi - lo + 1)) :
    bfSetNat o hi lo v < 256 := by
  refine Nat.lt_pow_two_of_testBit (n := 8) _ fun k hk => ?_
  have hout : ¬ (lo ≤ k ∧ k ≤ hi) := by omega
  rw [testBit_bfSetNat ho h h7 hv, if_neg hout]
  exact testBit_eq_false_of_lt_two_pow (n := 8) ho hk

/-! ### The laws of 41_bitfield.md R123 -/

/-- Getting what was set gives the value. -/
theorem bfGetNat_bfSetNat_self {o hi lo v : Nat} (ho : o < 256) (h : lo ≤ hi) (h7 : hi ≤ 7)
    (hv : v < 2 ^ (hi - lo + 1)) : bfGetNat (bfSetNat o hi lo v) hi lo = v := by
  refine Nat.eq_of_testBit_eq fun k => ?_
  rw [testBit_bfGetNat _ h, testBit_bfSetNat ho h h7 hv]
  by_cases hk : lo + k ≤ hi
  · simp [hk]
  · simp [hk, testBit_eq_false_of_lt_two_pow hv (show hi - lo + 1 ≤ k by omega)]

/-- Setting a range leaves what a disjoint range gives. -/
theorem bfGetNat_bfSetNat_of_disjoint {o hi lo v hi2 lo2 : Nat} (ho : o < 256) (h : lo ≤ hi) (h7 : hi ≤ 7)
    (hv : v < 2 ^ (hi - lo + 1)) (h2 : lo2 ≤ hi2) (hdisjoint : hi2 < lo ∨ hi < lo2) :
    bfGetNat (bfSetNat o hi lo v) hi2 lo2 = bfGetNat o hi2 lo2 := by
  refine Nat.eq_of_testBit_eq fun k => ?_
  rw [testBit_bfGetNat _ h2, testBit_bfGetNat _ h2, testBit_bfSetNat ho h h7 hv]
  by_cases hk : lo2 + k ≤ hi2
  · have hout : ¬ (lo ≤ lo2 + k ∧ lo2 + k ≤ hi) := by omega
    rw [if_neg hout]
  · simp [hk]

/-- Setting a range to what it gives changes nothing. -/
theorem bfSetNat_bfGetNat_self {o hi lo : Nat} (ho : o < 256) (h : lo ≤ hi) (h7 : hi ≤ 7) :
    bfSetNat o hi lo (bfGetNat o hi lo) = o := by
  refine Nat.eq_of_testBit_eq fun k => ?_
  rw [testBit_bfSetNat ho h h7 (bfGetNat_lt o hi lo), testBit_bfGetNat _ h]
  split_ifs with hin
  · simp [Nat.add_sub_cancel' hin.1, hin.2]
  · rfl

/-- Of two sets of a range the second wins. -/
theorem bfSetNat_bfSetNat_self {o hi lo v v2 : Nat} (ho : o < 256) (h : lo ≤ hi) (h7 : hi ≤ 7)
    (hv : v < 2 ^ (hi - lo + 1)) (hv2 : v2 < 2 ^ (hi - lo + 1)) :
    bfSetNat (bfSetNat o hi lo v) hi lo v2 = bfSetNat o hi lo v2 := by
  refine Nat.eq_of_testBit_eq fun k => ?_
  rw [testBit_bfSetNat (bfSetNat_lt ho h h7 hv) h h7 hv2, testBit_bfSetNat ho h h7 hv2, testBit_bfSetNat ho h h7 hv]
  split_ifs
  · rfl
  · rfl

/-! ### The words delivered -/

/-- The word `bf_get` delivers is the field of the word it reads. -/
theorem isField_bfGetNat (o : Word) {hi lo : Nat} (h : lo ≤ hi) :
    isField (BitVec.ofNat 32 (bfGetNat o.toNat hi lo)) o hi lo := by
  intro k hk
  simp only [BitVec.getLsbD_ofNat, hk, decide_true, Bool.true_and, BitVec.testBit_toNat, testBit_bfGetNat _ h]

/-- The word `bf_set` delivers is the octet with the field replaced. -/
theorem isFieldSet_bfSetNat {o f : Word} {hi lo : Nat} (ho : o.toNat < 256) (h : lo ≤ hi) (h7 : hi ≤ 7)
    (hf : f.toNat < 2 ^ (hi - lo + 1)) :
    isFieldSet (BitVec.ofNat 32 (bfSetNat o.toNat hi lo f.toNat)) o f hi lo := by
  intro k hk
  simp only [BitVec.getLsbD_ofNat, hk, decide_true, Bool.true_and, BitVec.testBit_toNat,
    testBit_bfSetNat ho h h7 hf]

/-! ### The commands -/

variable {s : State} {rd ra rb : Reg}

/-- A getter of what is no octet raises. -/
theorem getFieldBody_of_ge {hi lo : Nat} (h : 256 ≤ s.reg ra) : getFieldBody hi lo rd ra s = raise .rangeError := by
  rw [getFieldBody, oct_of_ge h]
  rfl

/-- A setter of what is no octet raises, whatever the value. -/
theorem setFieldBody_of_ge {hi lo bound : Nat} {e : ErrorKind} (h : 256 ≤ s.reg ra) :
    setFieldBody hi lo bound e rd ra rb s = raise .rangeError := by
  rw [setFieldBody, oct_of_ge h]
  rfl

/-- A setter of an octet raises its error on a value above its bound. -/
theorem setFieldBody_of_gt {hi lo bound : Nat} {e : ErrorKind} (ho : s.reg ra < 256) (h : bound < s.reg rb) :
    setFieldBody hi lo bound e rd ra rb s = raise e := by
  rw [setFieldBody, oct_of_lt ho, atMost_of_gt h]
  rfl

/-- A range that a command word can name passes its check. -/
theorem checkRange_of_le {hi lo : Fin 8} (h : lo ≤ hi) : checkRange hi lo = .ok () := if_neg (not_lt.mpr h)

/-- BF.GET of a legal range is a getter. -/
theorem exec_bfGet_of_le {hi lo : Fin 8} (h : lo ≤ hi) :
    exec (.bfGet rd ra hi lo) s = finish (.bfGet rd ra hi lo) s (getFieldBody hi.val lo.val rd ra s) := by
  simp only [exec, execBfGet, checkRange_of_le h, ok_bind]

/-- BF.SET of a legal range is a setter whose bound is the largest value of the range's width. -/
theorem exec_bfSet_of_le {hi lo : Fin 8} (h : lo ≤ hi) :
    exec (.bfSet rd ra rb hi lo) s = finish (.bfSet rd ra rb hi lo) s
      (setFieldBody hi.val lo.val (2 ^ bfWidth hi.val lo.val - 1) .rangeError rd ra rb s) := by
  simp only [exec, execBfSet, checkRange_of_le h, ok_bind]

end Sys2Proof.Machine
end

section
/-! The obligations of 41_bitfield.md. -/

namespace Sys2Proof.Machine

open Sys2Proof.Claims

/-- Settles O31: the range passes its check, and the carrier check decides between the field and RangeError. -/
theorem bitFieldGetResult : Obligations.BitFieldGetResult := by
  unfold Obligations.BitFieldGetResult
  intro s rd ra hi lo hle
  rw [exec_bfGet_of_le hle]
  exact ⟨fun ho => ⟨_, finish_of_ok (getFieldBody_eq_ok.mpr ⟨ho, rfl⟩), isField_bfGetNat _ hle⟩,
    fun ho => finish_of_raise (getFieldBody_of_ge ho)⟩

/-- Settles O32: the range passes its check; then the carrier and the value are checked, and both raise RangeError. -/
theorem bitFieldSetResult : Obligations.BitFieldSetResult := by
  unfold Obligations.BitFieldSetResult
  intro s rd ra rb hi lo hle
  rw [exec_bfSet_of_le hle]
  constructor
  · intro ho hv
    have hbound : s.reg rb ≤ 2 ^ bfWidth hi.val lo.val - 1 := Nat.le_sub_one_of_lt hv
    exact ⟨_, finish_of_ok (setFieldBody_eq_ok.mpr ⟨ho, hbound, rfl⟩),
      isFieldSet_bfSetNat ho hle (Nat.le_of_lt_succ hi.isLt) hv⟩
  · intro hbad
    by_cases ho : s.reg ra < 256
    · have hv : 2 ^ bfWidth hi.val lo.val ≤ s.reg rb := hbad.resolve_left (Nat.not_le.mpr ho)
      exact finish_of_raise (setFieldBody_of_gt ho (Nat.sub_one_lt_of_le (Nat.two_pow_pos _) hv))
    · exact finish_of_raise (setFieldBody_of_ge (Nat.not_lt.mp ho))

/-- Settles O33: each law is a lemma on `bf_get` and `bf_set`, whose two sides have the same bits. -/
theorem bitFieldLaws : Obligations.BitFieldLaws := by
  unfold Obligations.BitFieldLaws
  intro o hi lo v ho hle h7 hv
  exact ⟨bfGetNat_bfSetNat_self ho hle h7 hv,
    fun _ _ hle2 _ hdisjoint => bfGetNat_bfSetNat_of_disjoint ho hle h7 hv hle2 hdisjoint,
    bfSetNat_bfGetNat_self ho hle h7, fun _ hv2 => bfSetNat_bfSetNat_self ho hle h7 hv hv2⟩

end Sys2Proof.Machine
end

section
/-! SUPPORT. The commands that get and set a range of an octet, alone and one after the other
(42_control_field.md R132 to R140). -/

namespace Sys2Proof.Machine

open Sys2Proof.Claims

/-! ### Getters and setters -/

/-- The command `i` is a getter: it delivers the range `(hi, lo)` of the octet in `x[ra]` to `x[rd]`. -/
structure Gets (i : Instr) (hi lo : Nat) (rd ra : Reg) : Prop where
  exec_eq : ∀ s, exec i s = finish i s (getFieldBody hi lo rd ra s)
  le : lo ≤ hi

/-- The command `i` is a setter: it delivers to `x[rd]` the octet in `x[ra]` with the range `(hi, lo)` set to `x[rb]`,
and raises `e` above `bound`; the range is one of an octet, and the bound fits it. -/
structure Sets (i : Instr) (hi lo bound : Nat) (e : ErrorKind) (rd ra rb : Reg) : Prop where
  exec_eq : ∀ s, exec i s = finish i s (setFieldBody hi lo bound e rd ra rb s)
  le : lo ≤ hi
  le_seven : hi ≤ 7
  bound_lt : bound < 2 ^ (hi - lo + 1)

variable {s t : State} {i j k : Instr} {hi lo hi2 lo2 bound : Nat} {e : ErrorKind} {rd ra rb re : Reg}

theorem Gets.exec_of_lt (hget : Gets i hi lo rd ra) (ho : s.reg ra < 256) :
    exec i s = .next (written s rd (BitVec.ofNat 32 (bfGetNat (s.reg ra) hi lo))) := by
  rw [hget.exec_eq]
  exact finish_of_ok (getFieldBody_eq_ok.mpr ⟨ho, rfl⟩)

theorem Gets.exec_of_ge (hget : Gets i hi lo rd ra) (ho : 256 ≤ s.reg ra) :
    exec i s = .next (raised s 2 (encode i)) := by
  rw [hget.exec_eq]
  exact finish_of_raise (getFieldBody_of_ge ho)

theorem Sets.exec_of_le (hset : Sets i hi lo bound e rd ra rb) (ho : s.reg ra < 256) (hv : s.reg rb ≤ bound) :
    exec i s = .next (written s rd (BitVec.ofNat 32 (bfSetNat (s.reg ra) hi lo (s.reg rb)))) := by
  rw [hset.exec_eq]
  exact finish_of_ok (setFieldBody_eq_ok.mpr ⟨ho, hv, rfl⟩)

theorem Sets.exec_of_ge (hset : Sets i hi lo bound e rd ra rb) (ho : 256 ≤ s.reg ra) :
    exec i s = .next (raised s 2 (encode i)) := by
  rw [hset.exec_eq]
  exact finish_of_raise (setFieldBody_of_ge ho)

theorem Sets.exec_of_gt (hset : Sets i hi lo bound e rd ra rb) (ho : s.reg ra < 256) (hv : bound < s.reg rb) :
    exec i s = .next (raised s e.code (encode i)) := by
  rw [hset.exec_eq]
  exact finish_of_raise (setFieldBody_of_gt ho hv)

/-! ### A getter after a setter -/

/-- The destination of a command whose only write was a register holds the word written. -/
theorem reg_written (s : State) (rd : Reg) (v : Word) : (written s rd v).reg rd = v.toNat := s.setReg_reg_self rd v

/-- A setter of an octet to a legal value leaves an octet in `x[rd]`: the one in `x[ra]` with the range set. -/
theorem Sets.reg_of_next (hset : Sets i hi lo bound e rd ra rb) (ho : s.reg ra < 256) (hv : s.reg rb ≤ bound)
    (h : exec i s = .next t) : t.reg rd = bfSetNat (s.reg ra) hi lo (s.reg rb) ∧ t.reg rd < 256 := by
  have hoctet := bfSetNat_lt ho hset.le hset.le_seven (hv.trans_lt hset.bound_lt)
  rw [hset.exec_of_le ho hv] at h
  cases h
  rw [reg_written, BitVec.toNat_ofNat, Nat.mod_eq_of_lt (hoctet.trans (by decide))]
  exact ⟨rfl, hoctet⟩

/-- The getter of the range just set gives the value set (41_bitfield.md R123 (a)). -/
theorem Gets.exec_after_set (hget : Gets j hi lo re rd) (hset : Sets i hi lo bound e rd ra rb) (ho : s.reg ra < 256)
    (hv : s.reg rb ≤ bound) (h : exec i s = .next t) : exec j t = .next (written t re (s.x.get rb)) := by
  obtain ⟨hreg, hoctet⟩ := hset.reg_of_next ho hv h
  have hvalue : BitVec.ofNat 32 (s.reg rb) = s.x.get rb := (BitVec.ofNat_toNat 32 _).trans (BitVec.setWidth_eq _)
  rw [hget.exec_of_lt hoctet, hreg,
    bfGetNat_bfSetNat_self ho hset.le hset.le_seven (hv.trans_lt hset.bound_lt), hvalue]

/-- The getter of a range disjoint from the one just set gives what it gives on the octet before
(41_bitfield.md R123 (b)). -/
theorem Gets.exec_after_disjoint_set (hbefore : Gets k hi2 lo2 re ra) (hafter : Gets j hi2 lo2 re rd)
    (hset : Sets i hi lo bound e rd ra rb) (hdisjoint : hi2 < lo ∨ hi < lo2) (ho : s.reg ra < 256)
    (hv : s.reg rb ≤ bound) (h : exec i s = .next t) :
    ∃ v, exec k s = .next (written s re v) ∧ exec j t = .next (written t re v) := by
  obtain ⟨hreg, hoctet⟩ := hset.reg_of_next ho hv h
  refine ⟨_, hbefore.exec_of_lt ho, ?_⟩
  rw [hafter.exec_of_lt hoctet, hreg,
    bfGetNat_bfSetNat_of_disjoint ho hset.le hset.le_seven (hv.trans_lt hset.bound_lt) hafter.le hdisjoint]

/-! ### The commands and the ranges of the control field -/

theorem gets_of_mem_cfGetters {g : (Reg → Reg → Instr) × Nat × Nat} (hg : g ∈ cfGetters) (rd ra : Reg) :
    Gets (g.1 rd ra) g.2.1 g.2.2 rd ra := by
  simp only [cfGetters, List.mem_cons, List.not_mem_nil, or_false] at hg
  rcases hg with rfl | rfl | rfl | rfl
  all_goals exact ⟨fun _ => rfl, by decide⟩

/-- The commands of enumerations, CF.SFT and CF.SPR, raise UnsupportedType, the other two RangeError. -/
theorem sets_of_mem_cfSetters {g : (Reg → Reg → Reg → Instr) × Nat × Nat × Nat × Nat} (hg : g ∈ cfSetters)
    (rd ra rb : Reg) :
    ∃ e : ErrorKind, e.code = g.2.2.2.2 ∧ Sets (g.1 rd ra rb) g.2.1 g.2.2.1 g.2.2.2.1 e rd ra rb := by
  simp only [cfSetters, List.mem_cons, List.not_mem_nil, or_false] at hg
  rcases hg with rfl | rfl | rfl | rfl
  · exact ⟨.unsupportedType, rfl, fun _ => rfl, by decide, by decide, by decide⟩
  · exact ⟨.rangeError, rfl, fun _ => rfl, by decide, by decide, by decide⟩
  · exact ⟨.unsupportedType, rfl, fun _ => rfl, by decide, by decide, by decide⟩
  · exact ⟨.rangeError, rfl, fun _ => rfl, by decide, by decide, by decide⟩

/-- A getter and a setter of the control field have one range if their ranges have one top bit. -/
theorem cf_ranges_same : ∀ g ∈ cfSetters, ∀ f ∈ cfGetters, f.2.1 = g.2.1 → f.2.2 = g.2.2.1 := by decide

/-- A getter and a setter of the control field whose ranges differ at the top bit have disjoint ranges. -/
theorem cf_ranges_disjoint :
    ∀ g ∈ cfSetters, ∀ f ∈ cfGetters, f.2.1 ≠ g.2.1 → f.2.1 < g.2.2.1 ∨ g.2.1 < f.2.2 := by decide

/-- A range of an octet, moved back to its place, has the octet's bits inside the range and zeros outside it. -/
theorem testBit_bfGetNat_shiftLeft (o : Nat) {hi lo : Nat} (h : lo ≤ hi) (b : Nat) :
    (bfGetNat o hi lo <<< lo).testBit b = (decide (lo ≤ b ∧ b ≤ hi) && o.testBit b) := by
  rw [Nat.testBit_shiftLeft, testBit_bfGetNat o h]
  by_cases hb : lo ≤ b
  · simp [hb]
  · simp [hb]

/-- The four ranges of the control field cover the octet (42_control_field.md R140). -/
theorem eq_or_shiftLeft_cf_fields {o : Nat} (ho : o < 256) :
    o = bfGetNat o 7 7 <<< 7 ||| bfGetNat o 6 6 <<< 6 ||| bfGetNat o 5 4 <<< 4 ||| bfGetNat o 3 0 := by
  refine Nat.eq_of_testBit_eq fun b => ?_
  have htag : (bfGetNat o 3 0).testBit b = (decide (0 ≤ b ∧ b ≤ 3) && o.testBit b) :=
    testBit_bfGetNat_shiftLeft o (hi := 3) (lo := 0) (by decide) b
  have hcover : (7 ≤ b ∧ b ≤ 7 ∨ 6 ≤ b ∧ b ≤ 6 ∨ 4 ≤ b ∧ b ≤ 5 ∨ 0 ≤ b ∧ b ≤ 3) ↔ b < 8 := by omega
  simp only [Nat.testBit_or, htag, testBit_bfGetNat_shiftLeft o (show 7 ≤ 7 by decide),
    testBit_bfGetNat_shiftLeft o (show 6 ≤ 6 by decide), testBit_bfGetNat_shiftLeft o (show 4 ≤ 5 by decide),
    ← Bool.and_or_distrib_right, ← Bool.decide_or, or_assoc, hcover]
  by_cases hb : b < 8
  · simp [hb]
  · simp [testBit_eq_false_of_lt_two_pow (n := 8) ho (Nat.not_lt.mp hb)]

end Sys2Proof.Machine
end

section
/-! The obligations of 42_control_field.md. -/

namespace Sys2Proof.Machine

open Sys2Proof.Claims

/-- Settles O34: each of the four commands is the getter of its range. -/
theorem controlFieldGetterResults : Obligations.ControlFieldGetterResults := by
  unfold Obligations.ControlFieldGetterResults
  intro s rd ra g hg
  have hget := gets_of_mem_cfGetters hg rd ra
  exact ⟨fun ho => ⟨_, hget.exec_of_lt ho, isField_bfGetNat _ hget.le⟩, hget.exec_of_ge⟩

/-- Settles O35: each of the four commands is the setter of its range, with its own bound and error. -/
theorem controlFieldSetterResults : Obligations.ControlFieldSetterResults := by
  unfold Obligations.ControlFieldSetterResults
  intro s rd ra rb g hg
  obtain ⟨e, hcode, hset⟩ := sets_of_mem_cfSetters hg rd ra rb
  rw [← hcode]
  exact ⟨fun ho hv => ⟨_, hset.exec_of_le ho hv,
      isFieldSet_bfSetNat ho hset.le hset.le_seven (hv.trans_lt hset.bound_lt)⟩,
    hset.exec_of_ge, hset.exec_of_gt⟩

/-- Settles O36: a getter has either the setter's range or one disjoint from it, and the laws of 41_bitfield.md R123 say
what it gives; the decomposition holds because the four ranges cover the octet. -/
theorem controlFieldIsolation : Obligations.ControlFieldIsolation := by
  unfold Obligations.ControlFieldIsolation
  refine ⟨fun s t rd ra rb re g hg ho hv h f hf => ?_, fun o ho => eq_or_shiftLeft_cf_fields ho⟩
  obtain ⟨e, _, hset⟩ := sets_of_mem_cfSetters hg rd ra rb
  have hafter := gets_of_mem_cfGetters hf re rd
  constructor
  · intro hsame
    rw [hsame, cf_ranges_same g hg f hf hsame] at hafter
    exact hafter.exec_after_set hset ho hv h
  · intro hother
    exact (gets_of_mem_cfGetters hf re ra).exec_after_disjoint_set hafter hset (cf_ranges_disjoint g hg f hf hother)
      ho hv h

end Sys2Proof.Machine
end

section
/-! SUPPORT. A value set twice, and the ranges of the extended control field beside bits 2:1, which have no name
(43_extended_control_field.md R150 to R158). -/

namespace Sys2Proof.Machine

open Sys2Proof.Claims

variable {s t : State} {i j : Instr} {hi lo bound : Nat} {e : ErrorKind} {rd ra rb re rf : Reg}

/-- The setter of the range just set delivers the same octet again, if it is given the same value. -/
theorem Sets.exec_again (hset : Sets i hi lo bound e rd ra rb) (hagain : Sets j hi lo bound e re rd rf)
    (ho : s.reg ra < 256) (hv : s.reg rb ≤ bound) (h : exec i s = .next t) (hsame : t.x.get rf = s.x.get rb) :
    exec j t = .next (written t re (t.x.get rd)) := by
  obtain ⟨hreg, hoctet⟩ := hset.reg_of_next ho hv h
  have hwidth := hv.trans_lt hset.bound_lt
  have hvalue : t.reg rf = s.reg rb := congrArg BitVec.toNat hsame
  have hkeep : bfSetNat (t.reg rd) hi lo (t.reg rf) = t.reg rd := by
    rw [hvalue, hreg, bfSetNat_bfSetNat_self ho hset.le hset.le_seven hwidth hwidth]
  rw [hagain.exec_of_le hoctet (hvalue.trans_le hv), hkeep, State.reg, BitVec.ofNat_toNat, BitVec.setWidth_eq]

/-- BF.GET of a legal range is the getter of that range. -/
theorem gets_bfGet {hi lo : Fin 8} (h : lo ≤ hi) (rd ra : Reg) : Gets (.bfGet rd ra hi lo) hi.val lo.val rd ra :=
  ⟨fun _ => exec_bfGet_of_le h, h⟩

/-- BF.SET of a legal range is the setter of that range to any value of its width. -/
theorem sets_bfSet {hi lo : Fin 8} (h : lo ≤ hi) (rd ra rb : Reg) :
    Sets (.bfSet rd ra rb hi lo) hi.val lo.val (2 ^ bfWidth hi.val lo.val - 1) .rangeError rd ra rb :=
  ⟨fun _ => exec_bfSet_of_le h, h, Nat.le_of_lt_succ hi.isLt, Nat.sub_one_lt_of_le (Nat.two_pow_pos _) le_rfl⟩

theorem gets_ecfGhc (rd ra : Reg) : Gets (.ecfGhc rd ra) 6 3 rd ra := ⟨fun _ => rfl, by decide⟩

theorem sets_ecfShc (rd ra rb : Reg) : Sets (.ecfShc rd ra rb) 6 3 15 .rangeError rd ra rb :=
  ⟨fun _ => rfl, by decide, by decide, by decide⟩

theorem gets_of_mem_ecfGetters {g : (Reg → Reg → Instr) × Nat × Nat} (hg : g ∈ ecfGetters) (rd ra : Reg) :
    Gets (g.1 rd ra) g.2.1 g.2.2 rd ra := by
  simp only [ecfGetters, List.mem_cons, List.not_mem_nil, or_false] at hg
  rcases hg with rfl | rfl | rfl
  · exact ⟨fun _ => rfl, by decide⟩
  · exact gets_ecfGhc rd ra
  · exact ⟨fun _ => rfl, by decide⟩

/-- ECF.SAT, the command of an enumeration, raises UnsupportedType, the other two RangeError. -/
theorem sets_of_mem_ecfSetters {g : (Reg → Reg → Reg → Instr) × Nat × Nat × Nat × Nat} (hg : g ∈ ecfSetters)
    (rd ra rb : Reg) :
    ∃ e : ErrorKind, e.code = g.2.2.2.2 ∧ Sets (g.1 rd ra rb) g.2.1 g.2.2.1 g.2.2.2.1 e rd ra rb := by
  simp only [ecfSetters, List.mem_cons, List.not_mem_nil, or_false] at hg
  rcases hg with rfl | rfl | rfl
  · exact ⟨.unsupportedType, rfl, fun _ => rfl, by decide, by decide, by decide⟩
  · exact ⟨.rangeError, rfl, sets_ecfShc rd ra rb⟩
  · exact ⟨.rangeError, rfl, fun _ => rfl, by decide, by decide, by decide⟩

/-- A getter and a setter of the extended control field whose ranges differ at the top bit have disjoint ranges. -/
theorem ecf_ranges_disjoint :
    ∀ g ∈ ecfSetters, ∀ f ∈ ecfGetters, f.2.1 ≠ g.2.1 → f.2.1 < g.2.2.1 ∨ g.2.1 < f.2.2 := by decide

/-- No setter of the extended control field reaches bits 2:1. -/
theorem ecfSetters_disjoint_unnamed : ∀ g ∈ ecfSetters, 2 < g.2.2.1 ∨ g.2.1 < 1 := by decide

/-- No getter of the extended control field reads bits 2:1. -/
theorem ecfGetters_disjoint_unnamed : ∀ f ∈ ecfGetters, f.2.1 < 1 ∨ 2 < f.2.2 := by decide

end Sys2Proof.Machine
end

section
/-! The obligations of 43_extended_control_field.md. -/

namespace Sys2Proof.Machine

open Sys2Proof.Claims

/-- Settles O37: each of the three commands is the getter of its range. -/
theorem extControlFieldGetterResults : Obligations.ExtControlFieldGetterResults := by
  unfold Obligations.ExtControlFieldGetterResults
  intro s rd ra g hg
  have hget := gets_of_mem_ecfGetters hg rd ra
  exact ⟨fun ho => ⟨_, hget.exec_of_lt ho, isField_bfGetNat _ hget.le⟩, hget.exec_of_ge⟩

/-- Settles O38: each of the three commands is the setter of its range, with its own bound and error. -/
theorem extControlFieldSetterResults : Obligations.ExtControlFieldSetterResults := by
  unfold Obligations.ExtControlFieldSetterResults
  intro s rd ra rb g hg
  obtain ⟨e, hcode, hset⟩ := sets_of_mem_ecfSetters hg rd ra rb
  rw [← hcode]
  exact ⟨fun ho hv => ⟨_, hset.exec_of_le ho hv,
      isFieldSet_bfSetNat ho hset.le hset.le_seven (hv.trans_lt hset.bound_lt)⟩,
    hset.exec_of_ge, hset.exec_of_gt⟩

/-- Settles O39: the round trip is what getters and setters of one range give, the rejection is the bound of ECF.SHC,
and the isolation holds because the three ranges and bits 2:1 are disjoint. -/
theorem hopCountRoundTrip : Obligations.HopCountRoundTrip := by
  unfold Obligations.HopCountRoundTrip
  refine ⟨fun s t rd ra rb re rf ho hv h => ?_, fun s rd ra rb ho hrejected => ?_,
    fun s t rd ra rb re g hg ho hv h => ?_, fun s t rd ra rb re ho hv h f hf => ?_⟩
  · have hset := sets_ecfShc rd ra rb
    exact ⟨(gets_ecfGhc re rd).exec_after_set hset ho hv h, hset.exec_again (sets_ecfShc re rd rf) ho hv h⟩
  · have habove : 15 < s.reg rb := by
      rw [State.reg]
      rcases hrejected with h16 | hminusOne
      · rw [h16]; decide
      · rw [hminusOne]; decide
    exact ⟨_, (sets_ecfShc rd ra rb).exec_of_gt ho habove⟩
  · obtain ⟨e, _, hset⟩ := sets_of_mem_ecfSetters hg rd ra rb
    constructor
    · intro f hf hother
      exact (gets_of_mem_ecfGetters hf re ra).exec_after_disjoint_set (gets_of_mem_ecfGetters hf re rd) hset
        (ecf_ranges_disjoint g hg f hf hother) ho hv h
    · exact (gets_bfGet (by decide) re ra).exec_after_disjoint_set (gets_bfGet (by decide) re rd) hset
        (ecfSetters_disjoint_unnamed g hg) ho hv h
  · have hset := sets_bfSet (hi := 2) (lo := 1) (by decide) rd ra rb
    exact (gets_of_mem_ecfGetters hf re ra).exec_after_disjoint_set (gets_of_mem_ecfGetters hf re rd) hset
      (ecfGetters_disjoint_unnamed f hf) ho hv h

end Sys2Proof.Machine
end

section
/-! SUPPORT. The address numbers (44_address.md R171 to R176): packing as a sum, packing and the parts as inverse, and
the commands that pack and that deliver a part. -/

namespace Sys2Proof.Machine

open Sys2Proof.Claims

/-! ### Packing as a sum -/

/-- Three parts side by side, the last one 8 bits wide. -/
theorem shiftLeft_or_shiftLeft_or {n a b c : Nat} (hc : c < 2 ^ 8) (hbc : b * 2 ^ 8 + c < 2 ^ n) :
    a <<< n ||| b <<< 8 ||| c = a * 2 ^ n + b * 2 ^ 8 + c := by
  rw [Nat.lor_assoc, ← Nat.shiftLeft_add_eq_or_of_lt hc, Nat.shiftLeft_eq b, ← Nat.shiftLeft_add_eq_or_of_lt hbc,
    Nat.shiftLeft_eq, Nat.add_assoc]

theorem packIndividual_eq_ok {a l d v : Nat} :
    packIndividual a l d = .ok v ↔ (a ≤ 15 ∧ l ≤ 15 ∧ d ≤ 255) ∧ v = a * 4096 + l * 256 + d := by
  unfold packIndividual
  split
  · simp; omega
  · rw [shiftLeft_or_shiftLeft_or (by omega) (by omega), Except.ok.injEq]; omega

theorem packGroup2_eq_ok {m u v : Nat} :
    packGroup2 m u = .ok v ↔ (m ≤ 31 ∧ u ≤ 2047) ∧ v = m * 2048 + u := by
  unfold packGroup2
  split
  · simp; omega
  · rw [← Nat.shiftLeft_add_eq_or_of_lt (by omega), Nat.shiftLeft_eq, Except.ok.injEq]; omega

theorem packGroup3_eq_ok {m i u v : Nat} :
    packGroup3 m i u = .ok v ↔ (m ≤ 31 ∧ i ≤ 7 ∧ u ≤ 255) ∧ v = m * 2048 + i * 256 + u := by
  unfold packGroup3
  split
  · simp; omega
  · rw [shiftLeft_or_shiftLeft_or (by omega) (by omega), Except.ok.injEq]; omega

theorem packIndividual_of_gt {a l d : Nat} (h : 15 < a ∨ 15 < l ∨ 255 < d) :
    packIndividual a l d = raise .invalidAddress := if_pos h

theorem packGroup2_of_gt {m u : Nat} (h : 31 < m ∨ 2047 < u) : packGroup2 m u = raise .invalidAddress := if_pos h

theorem packGroup3_of_gt {m i u : Nat} (h : 31 < m ∨ 7 < i ∨ 255 < u) :
    packGroup3 m i u = raise .invalidAddress := if_pos h

/-! ### Packing and the parts are inverse -/

/-- A range of bits by division. -/
theorem bits_eq_div_mod (v hi lo : Nat) : bits v hi lo = v / 2 ^ lo % 2 ^ (hi - lo + 1) := by
  rw [bits, Nat.shiftRight_eq_div_pow]

theorem bits_lt (v hi lo : Nat) : bits v hi lo < 2 ^ (hi - lo + 1) := Nat.mod_lt _ (Nat.two_pow_pos _)

theorem bits_le (v hi lo : Nat) : bits v hi lo ≤ v := by
  rw [bits_eq_div_mod]
  exact (Nat.mod_le _ _).trans (Nat.div_le_self _ _)

theorem toOption_eq_some {x : Except Stop Nat} {v : Nat} : x.toOption = some v ↔ x = .ok v := by
  cases x <;> simp [Except.toOption]

/-- The parts that pack to a number are the parts of that number, which has 16 bits (44_address.md R176). -/
theorem packParts_eq_some_iff {k : AddrKind} {vs : List Nat} {v : Nat} :
    packParts k vs = some v ↔ v < 65536 ∧ vs = addressParts k v := by
  cases k with
  | individual =>
    match vs with
    | [a, l, d] =>
      simp only [packParts, toOption_eq_some, packIndividual_eq_ok, addressParts, bits_eq_div_mod, List.cons.injEq,
        and_true]
      omega
    | [] | [_] | [_, _] | _ :: _ :: _ :: _ :: _ => simp [packParts, addressParts]
  | group2 =>
    match vs with
    | [m, u] =>
      simp only [packParts, toOption_eq_some, packGroup2_eq_ok, addressParts, bits_eq_div_mod, List.cons.injEq,
        and_true]
      omega
    | [] | [_] | _ :: _ :: _ :: _ => simp [packParts, addressParts]
  | group3 =>
    match vs with
    | [m, i, u] =>
      simp only [packParts, toOption_eq_some, packGroup3_eq_ok, addressParts, bits_eq_div_mod, List.cons.injEq,
        and_true]
      omega
    | [] | [_] | [_, _] | _ :: _ :: _ :: _ :: _ => simp [packParts, addressParts]

theorem packParts_individual {a l d v : Nat} :
    packParts .individual [a, l, d] = some v ↔ packIndividual a l d = .ok v := toOption_eq_some

theorem packParts_group2 {m u v : Nat} : packParts .group2 [m, u] = some v ↔ packGroup2 m u = .ok v := toOption_eq_some

theorem packParts_group3 {m i u v : Nat} :
    packParts .group3 [m, i, u] = some v ↔ packGroup3 m i u = .ok v := toOption_eq_some

/-- Parts that pack to one number are equal (44_address.md R176). -/
theorem packParts_injective {k : AddrKind} {vs ws : List Nat} {v : Nat} (hv : packParts k vs = some v)
    (hw : packParts k ws = some v) : vs = ws := by
  obtain ⟨-, rfl⟩ := packParts_eq_some_iff.mp hv
  exact (packParts_eq_some_iff.mp hw).2.symm

/-! ### The commands that pack -/

variable {s s1 s2 s3 t : State} {i i1 i2 i3 j : Instr} {k : AddrKind} {rd ra re p q r : Reg} {rs : List Reg}
  {v hi lo hi1 lo1 hi2 lo2 hi3 lo3 : Nat}

/-- The word in a register is that of its number. -/
theorem ofNat_reg (s : State) (r : Reg) : BitVec.ofNat 32 (s.reg r) = s.x.get r :=
  (BitVec.ofNat_toNat 32 _).trans (BitVec.setWidth_eq _)

/-- A 16-bit number just written is read back. -/
theorem reg_written_ofNat (s : State) (rd : Reg) (hv : v < 65536) : (written s rd (BitVec.ofNat 32 v)).reg rd = v := by
  rw [reg_written, BitVec.toNat_ofNat, Nat.mod_eq_of_lt (hv.trans (by decide))]

/-- A command that writes the number it computes. -/
theorem exec_of_ok_number {x : Except Stop Nat} (hexec : exec i s = finish i s (x >>= fun v => .ok (s.setNat rd v)))
    (h : x = .ok v) : exec i s = .next (written s rd (BitVec.ofNat 32 v)) := by
  rw [hexec, h]
  exact finish_of_ok rfl

/-- The command `i` delivers to `x[rd]` the address of kind `k` with the parts in the registers `rs`, if they are in
range. -/
def Packs (k : AddrKind) (i : Instr) (rd : Reg) (rs : List Reg) : Prop :=
  ∀ s v, packParts k (rs.map s.reg) = some v → exec i s = .next (written s rd (BitVec.ofNat 32 v))

theorem packs_adPki (rd ra rb rc : Reg) : Packs .individual (.adPki rd ra rb rc) rd [ra, rb, rc] :=
  fun _ _ h => exec_of_ok_number rfl (packParts_individual.mp h)

theorem packs_adPk2 (rd ra rb : Reg) : Packs .group2 (.adPk2 rd ra rb) rd [ra, rb] :=
  fun _ _ h => exec_of_ok_number rfl (packParts_group2.mp h)

theorem packs_adPk3 (rd ra rb rc : Reg) : Packs .group3 (.adPk3 rd ra rb rc) rd [ra, rb, rc] :=
  fun _ _ h => exec_of_ok_number rfl (packParts_group3.mp h)

/-- After a command that packs, `x[rd]` holds a 16-bit number whose parts are those packed. -/
theorem Packs.parts_of_next (hpack : Packs k i rd rs) (hv : packParts k (rs.map s.reg) = some v)
    (h : exec i s = .next t) : t.reg rd < 65536 ∧ rs.map s.reg = addressParts k (t.reg rd) := by
  have hparts := packParts_eq_some_iff.mp hv
  rw [hpack s v hv] at h
  cases h
  rwa [reg_written_ofNat s rd hparts.1]

/-- Packing the parts of a 16-bit number that another state has in a register gives that register's word. -/
theorem Packs.exec_of_parts (hpack : Packs k i rd rs) (hv : s.reg r < 65536)
    (hparts : rs.map t.reg = addressParts k (s.reg r)) : exec i t = .next (written t rd (s.x.get r)) := by
  rw [hpack t _ (packParts_eq_some_iff.mpr ⟨hv, hparts⟩), ofNat_reg]

/-! ### The commands that deliver a part -/

/-- The command `i` delivers the part `(hi, lo)` of the address in `x[ra]` to `x[rd]`. -/
def GetsPart (i : Instr) (hi lo : Nat) (rd ra : Reg) : Prop :=
  ∀ s, exec i s = finish i s (addressPartBody hi lo rd ra s)

theorem GetsPart.exec_of_lt (hget : GetsPart i hi lo rd ra) (hv : s.reg ra < 65536) :
    exec i s = .next (written s rd (BitVec.ofNat 32 (bits (s.reg ra) hi lo))) := by
  rw [hget]
  exact finish_of_ok (addressPartBody_eq_ok.mpr ⟨hv, rfl⟩)

theorem GetsPart.exec_of_ge (hget : GetsPart i hi lo rd ra) (hv : 65536 ≤ s.reg ra) :
    exec i s = .next (raised s 2 (encode i)) := by
  rw [hget]
  exact finish_of_raise (bind_eq_error.mpr (.inl (u16_of_ge hv)))

/-- A part that is the number in a register is delivered as that register's word. -/
theorem GetsPart.exec_of_eq (hget : GetsPart j hi lo re rd) (hv : t.reg rd < 65536)
    (hpart : s.reg r = bits (t.reg rd) hi lo) : exec j t = .next (written t re (s.x.get r)) := by
  rw [hget.exec_of_lt hv, ← hpart, ofNat_reg]

/-- The destination then holds the part, and every other register its old value. -/
theorem GetsPart.reg_of_next (hget : GetsPart i hi lo rd ra) (hv : s.reg ra < 65536) (h : exec i s = .next t) :
    t.reg rd = bits (s.reg ra) hi lo ∧ ∀ r, r ≠ rd → t.reg r = s.reg r := by
  rw [hget.exec_of_lt hv] at h
  cases h
  exact ⟨reg_written_ofNat s rd ((bits_le _ _ _).trans_lt hv), fun r hr => s.setReg_reg_ne rd _ hr⟩

/-- Two parts of `x[ra]`, delivered one after the other, and the registers other than the two destinations. -/
theorem GetsPart.regs_of_next_next (hget1 : GetsPart i1 hi1 lo1 p ra) (hget2 : GetsPart i2 hi2 lo2 q ra)
    (hv : s.reg ra < 65536) (hp : ra ≠ p) (hpq : p ≠ q) (h1 : exec i1 s = .next s1) (h2 : exec i2 s1 = .next s2) :
    s2.reg p = bits (s.reg ra) hi1 lo1 ∧ s2.reg q = bits (s.reg ra) hi2 lo2 ∧
      ∀ r, r ≠ p → r ≠ q → s2.reg r = s.reg r := by
  obtain ⟨hp1, hkeep1⟩ := hget1.reg_of_next hv h1
  rw [← hkeep1 ra hp] at hv
  obtain ⟨hq2, hkeep2⟩ := hget2.reg_of_next hv h2
  rw [hkeep1 ra hp] at hq2
  exact ⟨(hkeep2 p hpq).trans hp1, hq2, fun r hrp hrq => (hkeep2 r hrq).trans (hkeep1 r hrp)⟩

/-- Three parts of `x[ra]`, delivered one after the other. -/
theorem GetsPart.regs_of_next_next_next (hget1 : GetsPart i1 hi1 lo1 p ra) (hget2 : GetsPart i2 hi2 lo2 q ra)
    (hget3 : GetsPart i3 hi3 lo3 r ra) (hv : s.reg ra < 65536) (hdistinct : [ra, p, q, r].Nodup)
    (h1 : exec i1 s = .next s1) (h2 : exec i2 s1 = .next s2) (h3 : exec i3 s2 = .next s3) :
    [p, q, r].map s3.reg = [bits (s.reg ra) hi1 lo1, bits (s.reg ra) hi2 lo2, bits (s.reg ra) hi3 lo3] := by
  simp only [List.nodup_cons, List.mem_cons, not_or] at hdistinct
  obtain ⟨⟨hp, hq, -⟩, ⟨hpq, hpr, -⟩, ⟨hqr, -⟩, -⟩ := hdistinct
  obtain ⟨hp2, hq2, hkeep⟩ := hget1.regs_of_next_next hget2 hv hp hpq h1 h2
  rw [← hkeep ra hp hq] at hv
  obtain ⟨hr3, hkeep3⟩ := hget3.reg_of_next hv h3
  rw [hkeep ra hp hq] at hr3
  rw [List.map_cons, List.map_cons, List.map_singleton, hkeep3 p hpr, hkeep3 q hqr, hp2, hq2, hr3]

theorem getsPart_of_mem_addressPart {g : (Reg → Reg → Instr) × Nat × Nat} (hg : g ∈ addressPart) (rd ra : Reg) :
    ∃ hi lo, GetsPart (g.1 rd ra) hi lo rd ra ∧ ∀ v, bits v hi lo = v / g.2.1 % g.2.2 := by
  simp only [addressPart, List.mem_cons, List.not_mem_nil, or_false] at hg
  rcases hg with rfl | rfl | rfl | rfl | rfl | rfl | rfl | rfl
  all_goals exact ⟨_, _, fun _ => rfl, fun _ => bits_eq_div_mod _ _ _⟩

end Sys2Proof.Machine
end

section
/-! SUPPORT. The host's textual addresses (44_address.md R181 to R187): decimal numbers, splitting and joining, and what
a text must be to be accepted. -/

namespace Sys2Proof.Machine

/-! ### Decimal digits -/

/-- The digit of value `d`. -/
def decimalDigit (d : Nat) : Char := Char.ofNat ('0'.toNat + d)

theorem digitValue_decimalDigit {d : Nat} (h : d < 10) : digitValue (decimalDigit d) = some d := by
  interval_cases d <;> rfl

theorem digitValue_eq_some {c : Char} {d : Nat} (h : digitValue c = some d) : d < 10 ∧ c = decimalDigit d := by
  unfold digitValue at h
  split at h
  case isTrue hc =>
    obtain ⟨hlo, hhi⟩ := hc
    have hd : c.toNat - '0'.toNat = d := Option.some.inj h
    have hnine : '9'.toNat = '0'.toNat + 9 := rfl
    refine ⟨by omega, ?_⟩
    rw [decimalDigit, ← hd, Nat.add_sub_cancel' hlo, Char.ofNat_toNat]
  case isFalse => cases h

/-- The value of a text with one more digit at its end. -/
theorem digitsValue_concat (v : Nat) (p : Text) (c : Char) :
    digitsValue v (p ++ [c]) = (digitsValue v p).bind fun w => (digitValue c).map (w * 10 + ·) := by
  induction p generalizing v with
  | nil => cases h : digitValue c <;> simp [digitsValue, h]
  | cons b p ih => cases h : digitValue b <;> simp [digitsValue, h, ih]

/-! ### The minimal decimal representation -/

theorem decimalDigits_append (fuel n : Nat) (acc : Text) :
    decimalDigits fuel n acc = decimalDigits fuel n [] ++ acc := by
  induction fuel generalizing n acc with
  | zero => rfl
  | succ fuel ih =>
    simp only [decimalDigits]
    split
    · rfl
    · rw [ih, ih _ [_], List.append_assoc, List.singleton_append]

/-- More fuel than the number does not change its digits. -/
theorem decimalDigits_fuel {fuel fuel' n : Nat} (h : n < fuel) (h' : n < fuel') (acc : Text) :
    decimalDigits fuel n acc = decimalDigits fuel' n acc := by
  induction fuel generalizing fuel' n acc with
  | zero => omega
  | succ fuel ih =>
    obtain ⟨fuel', rfl⟩ := Nat.exists_eq_add_of_lt h'
    simp only [decimalDigits]
    split
    · rfl
    · exact ih (by omega) (by omega) _

theorem decimal_of_lt {d : Nat} (h : d < 10) : decimal d = [decimalDigit d] := by
  simp [decimal, decimalDigits, decimalDigit, Nat.div_eq_of_lt h, Nat.mod_eq_of_lt h]

/-- The last digit stands behind the digits of the number without it. -/
theorem decimal_mul_ten_add {v d : Nat} (hv : v ≠ 0) (hd : d < 10) :
    decimal (v * 10 + d) = decimal v ++ [decimalDigit d] := by
  have hdiv : (v * 10 + d) / 10 = v := by omega
  have hmod : (v * 10 + d) % 10 = d := by omega
  rw [decimal, decimalDigits, hdiv, hmod, if_neg hv, decimalDigits_append, decimal,
    decimalDigits_fuel (by omega) (Nat.lt_succ_self v)]
  rfl

/-- Induction along the digits of a number. -/
theorem decimal_induction {P : Nat → Text → Prop} (hdigit : ∀ d < 10, P d [decimalDigit d])
    (hconcat : ∀ v d, v ≠ 0 → d < 10 → P v (decimal v) → P (v * 10 + d) (decimal v ++ [decimalDigit d])) (n : Nat) :
    P n (decimal n) := by
  induction n using Nat.strong_induction_on with
  | h n ih =>
    by_cases hn : n < 10
    · rw [decimal_of_lt hn]
      exact hdigit n hn
    · have hsplit : n = n / 10 * 10 + n % 10 := by omega
      have hstep := hconcat (n / 10) (n % 10) (by omega) (by omega) (ih _ (by omega))
      rwa [← decimal_mul_ten_add (by omega) (by omega), ← hsplit] at hstep

@[simp] theorem digitsValue_decimal (n : Nat) : digitsValue 0 (decimal n) = some n := by
  refine decimal_induction (P := fun n t => digitsValue 0 t = some n) (fun d hd => ?_) (fun v d _ hd ih => ?_) n
  · simp [digitsValue, digitValue_decimalDigit hd]
  · simp [digitsValue_concat, ih, digitValue_decimalDigit hd]

/-- A character that is no digit does not occur in a decimal number. -/
theorem not_mem_decimal {c : Char} (hc : digitValue c = none) (n : Nat) : c ∉ decimal n := by
  have hne : ∀ d < 10, c ≠ decimalDigit d := by
    rintro d hd rfl
    simp [digitValue_decimalDigit hd] at hc
  refine decimal_induction (P := fun _ t => c ∉ t) (fun d hd => ?_) (fun v d _ hd ih => ?_) n
  · simpa using hne d hd
  · simpa [ih] using hne d hd

/-- A number below a power of ten has at most as many digits, and at least one. -/
theorem length_decimal {n m : Nat} (h : n < 10 ^ (m + 1)) : (decimal n).length ≤ m + 1 ∧ (decimal n).length ≠ 0 := by
  refine decimal_induction (P := fun n t => ∀ m, n < 10 ^ (m + 1) → t.length ≤ m + 1 ∧ t.length ≠ 0)
    (fun d _ m _ => by simp) (fun v d hv _ ih m hm => ?_) n m h
  cases m with
  | zero => omega
  | succ m =>
    obtain ⟨hle, -⟩ := ih m (by rw [pow_succ] at hm; omega)
    simp [hle]

/-! ### Reading a decimal number -/

theorem digitsValue_cons_eq_some {v n : Nat} {c : Char} {p : Text} (h : digitsValue v (c :: p) = some n) :
    ∃ d < 10, c = decimalDigit d ∧ digitsValue (v * 10 + d) p = some n := by
  obtain ⟨d, hc, hp⟩ := Option.bind_eq_some_iff.mp h
  obtain ⟨hd, rfl⟩ := digitValue_eq_some hc
  exact ⟨d, hd, rfl, hp⟩

/-- The digits that continue a number other than 0 stand behind it. -/
theorem decimal_append_of_digitsValue {v n : Nat} {p : Text} (hv : v ≠ 0) (h : digitsValue v p = some n) :
    decimal v ++ p = decimal n := by
  induction p generalizing v with
  | nil =>
    cases h
    exact List.append_nil _
  | cons c p ih =>
    obtain ⟨d, hd, rfl, hp⟩ := digitsValue_cons_eq_some h
    rw [← ih (by omega) hp, decimal_mul_ten_add hv hd, List.append_assoc, List.singleton_append]

/-- Without its leading zeros a text of digits is the minimal one of its value (44_address.md R187). -/
theorem stripZeros_of_digitsValue {n : Nat} {p : Text} (hp : p ≠ []) (h : digitsValue 0 p = some n) :
    stripZeros p = decimal n := by
  induction p using stripZeros.induct with
  | case1 => exact absurd rfl hp
  | case2 c =>
    obtain ⟨d, hd, rfl, hn⟩ := digitsValue_cons_eq_some h
    cases hn
    rw [stripZeros, Nat.zero_mul, Nat.zero_add, decimal_of_lt hd]
  | case3 c cs ih =>
    rw [stripZeros, if_pos rfl]
    exact ih (List.cons_ne_nil _ _) h
  | case4 c b cs hc =>
    obtain ⟨d, hd, rfl, hn⟩ := digitsValue_cons_eq_some h
    have hd0 : d ≠ 0 := fun h0 => hc (by rw [h0]; rfl)
    rw [Nat.zero_mul, Nat.zero_add] at hn
    rw [stripZeros, if_neg hc, ← decimal_append_of_digitsValue hd0 hn, decimal_of_lt hd, List.singleton_append]

/-! ### The parts of a text -/

theorem parsePart_eq_some {m v : Nat} {p : Text} :
    parsePart m p = some v ↔ (p.length ≤ m ∧ p.length ≠ 0) ∧ digitsValue 0 p = some v := by
  unfold parsePart
  split
  case isTrue h =>
    simp only [reduceCtorEq, false_iff]
    rintro ⟨⟨hle, hne⟩, -⟩
    exact h.elim (Nat.not_lt.mpr hle) hne
  case isFalse h =>
    rw [not_or, Nat.not_lt] at h
    exact (and_iff_right h).symm

theorem parsePart_decimal {m v : Nat} (h : v < 10 ^ (m + 1)) : parsePart (m + 1) (decimal v) = some v :=
  parsePart_eq_some.mpr ⟨length_decimal h, digitsValue_decimal v⟩

/-- Accepted parts are as many as the kind has, and are their values' minimal texts up to leading zeros. -/
theorem parseParts_eq_some {ms vs : List Nat} {ps : List Text} (h : parseParts ms ps = some vs) :
    ps.length = ms.length ∧ ps.map stripZeros = vs.map decimal := by
  induction ms generalizing ps vs with
  | nil =>
    cases ps with
    | nil => cases h; exact ⟨rfl, rfl⟩
    | cons => cases h
  | cons m ms ih =>
    cases ps with
    | nil => cases h
    | cons p ps =>
      obtain ⟨v, hp, h⟩ := Option.bind_eq_some_iff.mp h
      obtain ⟨ws, hps, rfl⟩ := Option.map_eq_some_iff.mp h
      obtain ⟨⟨-, hlen⟩, hvalue⟩ := parsePart_eq_some.mp hp
      obtain ⟨hlength, hstrip⟩ := ih hps
      have hstripped := stripZeros_of_digitsValue (List.ne_nil_of_length_pos (Nat.pos_of_ne_zero hlen)) hvalue
      simp [hlength, hstrip, hstripped]

theorem parseParts_map_decimal {ms vs : List Nat}
    (h : List.Forall₂ (fun m v => parsePart m (decimal v) = some v) ms vs) :
    parseParts ms (vs.map decimal) = some vs := by
  induction h with
  | nil => rfl
  | cons hv _ ih => simp [parseParts, hv, ih]

/-- Every part fits the largest number of characters of its kind (44_address.md R183). -/
theorem parseParts_addressParts (k : AddrKind) (v : Nat) :
    parseParts (partMaxima k) ((addressParts k v).map decimal) = some (addressParts k v) := by
  have hfits : ∀ m hi lo, 2 ^ (hi - lo + 1) ≤ 10 ^ (m + 1) →
      parsePart (m + 1) (decimal (bits v hi lo)) = some (bits v hi lo) :=
    fun m hi lo h => parsePart_decimal ((bits_lt v hi lo).trans_le h)
  apply parseParts_map_decimal
  cases k with
  | individual =>
    exact .cons (hfits 1 15 12 (by decide)) (.cons (hfits 1 11 8 (by decide)) (.cons (hfits 2 7 0 (by decide)) .nil))
  | group2 => exact .cons (hfits 1 15 11 (by decide)) (.cons (hfits 3 10 0 (by decide)) .nil)
  | group3 =>
    exact .cons (hfits 1 15 11 (by decide)) (.cons (hfits 0 10 8 (by decide)) (.cons (hfits 2 7 0 (by decide)) .nil))

/-! ### Splitting and joining -/

theorem splitText_eq_splitOn (sep : Char) (t : Text) : splitText sep t = t.splitOn sep := by
  induction t with
  | nil => rfl
  | cons c t ih =>
    rw [splitText, ih, List.splitOn_cons_eq_if_modifyHead]
    by_cases hc : c = sep
    · simp [hc]
    · cases h : t.splitOn sep with
      | nil => exact absurd h (List.splitOn_ne_nil _ _)
      | cons => simp [hc]

theorem joinText_eq_intercalate (sep : Char) (ps : List Text) : joinText sep ps = [sep].intercalate ps := by
  induction ps using joinText.induct with
  | case1 => rfl
  | case2 p => simp [joinText]
  | case3 p q ps ih => simp [joinText, ih, List.intercalate_cons_cons]

/-- Parts without the separator are got back by splitting. -/
theorem splitText_joinText {sep : Char} {ps : List Text} (hsep : ∀ p ∈ ps, sep ∉ p) (hps : ps ≠ []) :
    splitText sep (joinText sep ps) = ps := by
  rw [splitText_eq_splitOn, joinText_eq_intercalate, List.splitOn_intercalate sep hsep hps]

theorem mem_joinText {sep c : Char} {ps : List Text} (h : c ∈ joinText sep ps) : c = sep ∨ ∃ p ∈ ps, c ∈ p := by
  induction ps using joinText.induct with
  | case1 => cases h
  | case2 p => exact .inr ⟨p, List.mem_singleton_self p, h⟩
  | case3 p q ps ih =>
    rw [joinText, List.mem_append, List.mem_cons] at h
    obtain hp | hc | hrest := h
    · exact .inr ⟨p, List.mem_cons_self, hp⟩
    · exact .inl hc
    · exact (ih hrest).imp_right fun ⟨r, hr, hcr⟩ => ⟨r, List.mem_cons_of_mem p hr, hcr⟩

/-! ### The separator of a text -/

theorem textSeparator_eq_some {t : Text} {sep : Char} :
    textSeparator t = some sep ↔ (sep = '.' ∧ '.' ∈ t ∧ '/' ∉ t) ∨ (sep = '/' ∧ '/' ∈ t ∧ '.' ∉ t) := by
  unfold textSeparator
  by_cases hdot : '.' ∈ t <;> by_cases hslash : '/' ∈ t <;> simp [hdot, hslash, eq_comm]

theorem digitValue_separator (k : AddrKind) : digitValue k.separator = none := by cases k <;> rfl

/-- A text of a kind has the kind's separator between its parts, and no other character that is no digit. -/
theorem textSeparator_formatNumber (v : Nat) (k : AddrKind) : textSeparator (formatNumber v k) = some k.separator := by
  have hmem : k.separator ∈ formatNumber v k := by cases k <;> simp [formatNumber, addressParts, joinText]
  have hother : ∀ c, digitValue c = none → c ≠ k.separator → c ∉ formatNumber v k := by
    intro c hc hne hin
    obtain heq | ⟨p, hp, hcp⟩ := mem_joinText hin
    · exact hne heq
    · obtain ⟨n, -, rfl⟩ := List.mem_map.mp hp
      exact not_mem_decimal hc n hcp
  rw [textSeparator_eq_some]
  cases k with
  | individual => exact .inl ⟨rfl, hmem, hother '/' rfl (by decide)⟩
  | group2 | group3 => exact .inr ⟨rfl, hmem, hother '.' rfl (by decide)⟩

theorem splitText_formatNumber (v : Nat) (k : AddrKind) :
    splitText k.separator (formatNumber v k) = (addressParts k v).map decimal := by
  refine splitText_joinText (fun p hp => ?_) (by cases k <;> simp [addressParts])
  obtain ⟨n, -, rfl⟩ := List.mem_map.mp hp
  exact not_mem_decimal (digitValue_separator k) n

/-! ### Accepted texts -/

/-- The separator and the number of parts of a text determine its kind (44_address.md R182). -/
theorem textKind_eq_some {t : Text} {sep : Char} {n : Nat} {k : AddrKind} (hsep : textSeparator t = some sep) :
    textKind sep n = some k ↔ sep = k.separator ∧ n = (partMaxima k).length := by
  obtain ⟨rfl, -⟩ | ⟨rfl, -⟩ := textSeparator_eq_some.mp hsep
  · cases k <;> simp [textKind, AddrKind.separator, partMaxima]
  · by_cases h2 : n = 2
    · cases k <;> simp [textKind, AddrKind.separator, partMaxima, h2]
    · by_cases h3 : n = 3
      · cases k <;> simp [textKind, AddrKind.separator, partMaxima, h3]
      · cases k <;> simp [textKind, AddrKind.separator, partMaxima, h2, h3]

/-- A text is accepted as the address `v` of kind `k` exactly if it has the kind's separator and its parts are read as
the parts of `v` (44_address.md R181 to R185). -/
theorem readAddress_eq_some_iff {t : Text} {k : AddrKind} {v : Nat} :
    readAddress t = some (k, v) ↔ textSeparator t = some k.separator ∧ v < 65536 ∧
      parseParts (partMaxima k) (splitText k.separator t) = some (addressParts k v) := by
  constructor
  · intro h
    obtain ⟨sep, hsep, h⟩ := Option.bind_eq_some_iff.mp h
    obtain ⟨k', hk, h⟩ := Option.bind_eq_some_iff.mp h
    obtain ⟨vs, hvs, h⟩ := Option.bind_eq_some_iff.mp h
    obtain ⟨v', hv, h⟩ := Option.bind_eq_some_iff.mp h
    cases h
    obtain ⟨rfl, -⟩ := (textKind_eq_some hsep).mp hk
    obtain ⟨hlt, rfl⟩ := packParts_eq_some_iff.mp hv
    exact ⟨hsep, hlt, hvs⟩
  · rintro ⟨hsep, hlt, hvs⟩
    have hk := (textKind_eq_some hsep).mpr ⟨rfl, (parseParts_eq_some hvs).1⟩
    have hv := packParts_eq_some_iff.mpr ⟨hlt, Eq.refl (addressParts k v)⟩
    simp [readAddress, hsep, hk, hvs, hv]

/-- The text of a 16-bit number is read as that number (44_address.md R187). -/
theorem readAddress_formatNumber {v : Nat} (hv : v < 65536) (k : AddrKind) :
    readAddress (formatNumber v k) = some (k, v) := by
  rw [readAddress_eq_some_iff, splitText_formatNumber]
  exact ⟨textSeparator_formatNumber v k, hv, parseParts_addressParts k v⟩

/-- The text of the number read from a text is that text without the leading zeros of its parts (44_address.md R187). -/
theorem formatNumber_of_readAddress {t : Text} {k : AddrKind} {v : Nat} (h : readAddress t = some (k, v)) :
    formatNumber v k = normalizeText k.separator t := by
  obtain ⟨-, -, hvs⟩ := readAddress_eq_some_iff.mp h
  rw [formatNumber, normalizeText, (parseParts_eq_some hvs).2]

/-! ### Octets -/

/-- Two octets of an accepted text give back its number. -/
theorem formatAddress_beOctets_two {v : Nat} (hv : v < 65536) (k : AddrKind) :
    formatAddress (beOctets 2 v) k = .ok (formatNumber v k) :=
  congrArg (fun n => Except.ok (formatNumber n k)) (beNat_beOctets_two v hv)

theorem parseAddress_eq_error {t : Text} {e : HostError} (h : parseAddress t = .error e) : e = .invalidAddress t := by
  unfold parseAddress at h
  split at h
  · cases h
  · cases h; rfl

theorem formatAddress_of_short {b : List Byte} (h : b.length < 2) (k : AddrKind) :
    formatAddress b k = .error .frameTooShort := by
  match b with
  | [] | [_] => rfl
  | _ :: _ :: _ => simp at h

/-- The text of two octets is accepted and gives the octets back (44_address.md R187). -/
theorem parseAddress_formatNumber (hi lo : Byte) (k : AddrKind) :
    parseAddress (formatNumber (beNat [hi, lo]) k) = .ok (k, [hi, lo]) := by
  have hv : beNat [hi, lo] < 65536 := (beNat_lt [hi, lo]).trans_eq (by simp)
  have hoctets : beOctets 2 (beNat [hi, lo]) = [hi, lo] := beOctets_beNat [hi, lo]
  exact (parseAddress_eq_ok_iff _ _ _).mpr ⟨_, readAddress_formatNumber hv k, hoctets.symm⟩

/-- An accepted text gives two octets, whose text is the accepted one without leading zeros (44_address.md R187). -/
theorem formatAddress_of_parseAddress {t : Text} {k : AddrKind} {b : List Byte} (h : parseAddress t = .ok (k, b)) :
    b.length = 2 ∧ formatAddress b k = .ok (normalizeText k.separator t) := by
  obtain ⟨v, hread, rfl⟩ := (parseAddress_eq_ok_iff t k b).mp h
  obtain ⟨-, hv, -⟩ := readAddress_eq_some_iff.mp hread
  rw [formatAddress_beOctets_two hv, formatNumber_of_readAddress hread]
  exact ⟨length_beOctets 2 v, rfl⟩

end Sys2Proof.Machine
end

section
/-! The obligations of 44_address.md. -/

namespace Sys2Proof.Machine

open Sys2Proof.Claims

/-- Settles O40: each pack is a sum behind one range check, which decides between the sum and InvalidAddress. -/
theorem addressPackResults : Obligations.AddressPackResults := by
  unfold Obligations.AddressPackResults
  intro s rd ra rb rc
  refine ⟨fun h => ?_, fun h => ?_, fun h => ?_, fun h => ?_, fun h => ?_, fun h => ?_⟩
  · exact packs_adPki rd ra rb rc s _ (packParts_individual.mpr (packIndividual_eq_ok.mpr ⟨h, rfl⟩))
  · exact finish_of_raise (bind_eq_error.mpr (.inl (packIndividual_of_gt h)))
  · exact packs_adPk2 rd ra rb s _ (packParts_group2.mpr (packGroup2_eq_ok.mpr ⟨h, rfl⟩))
  · exact finish_of_raise (bind_eq_error.mpr (.inl (packGroup2_of_gt h)))
  · exact packs_adPk3 rd ra rb rc s _ (packParts_group3.mpr (packGroup3_eq_ok.mpr ⟨h, rfl⟩))
  · exact finish_of_raise (bind_eq_error.mpr (.inl (packGroup3_of_gt h)))

/-- Settles O41: each of the eight commands delivers its range of bits, after the carrier check. -/
theorem addressPartResults : Obligations.AddressPartResults := by
  unfold Obligations.AddressPartResults
  intro s rd ra g hg
  obtain ⟨hi, lo, hget, hpart⟩ := getsPart_of_mem_addressPart hg rd ra
  refine ⟨fun hv => ?_, hget.exec_of_ge⟩
  rw [← hpart]
  exact hget.exec_of_lt hv

/-- Settles O42: the parts in range that pack to a number are that number's parts, for every kind. -/
theorem addressPackAndGetAreInverse : Obligations.AddressPackAndGetAreInverse := by
  unfold Obligations.AddressPackAndGetAreInverse
  refine ⟨fun s t rd ra rb rc re => ⟨fun ha hb hc h => ?_, fun ha hb h => ?_, fun ha hb hc h => ?_⟩,
    fun s s1 s2 s3 v p q r re hdistinct hv => ⟨fun h1 h2 h3 => ?_, fun h1 h2 => ?_, fun h1 h2 h3 => ?_⟩,
    fun a l d a' l' d' v h h' => ?_, fun m u m' u' v h h' => ?_, fun m i u m' i' u' v h h' => ?_, rfl, rfl, rfl⟩
  · obtain ⟨hlt, hparts⟩ := (packs_adPki rd ra rb rc).parts_of_next
      (packParts_individual.mpr (packIndividual_eq_ok.mpr ⟨⟨ha, hb, hc⟩, rfl⟩)) h
    simp only [addressParts, List.map, List.cons.injEq, and_true] at hparts
    obtain ⟨harea, hline, hdev⟩ := hparts
    exact ⟨GetsPart.exec_of_eq (fun _ => rfl) hlt harea, GetsPart.exec_of_eq (fun _ => rfl) hlt hline,
      GetsPart.exec_of_eq (fun _ => rfl) hlt hdev⟩
  · obtain ⟨hlt, hparts⟩ := (packs_adPk2 rd ra rb).parts_of_next
      (packParts_group2.mpr (packGroup2_eq_ok.mpr ⟨⟨ha, hb⟩, rfl⟩)) h
    simp only [addressParts, List.map, List.cons.injEq, and_true] at hparts
    obtain ⟨hmain, hsub⟩ := hparts
    exact ⟨GetsPart.exec_of_eq (fun _ => rfl) hlt hmain, GetsPart.exec_of_eq (fun _ => rfl) hlt hsub⟩
  · obtain ⟨hlt, hparts⟩ := (packs_adPk3 rd ra rb rc).parts_of_next
      (packParts_group3.mpr (packGroup3_eq_ok.mpr ⟨⟨ha, hb, hc⟩, rfl⟩)) h
    simp only [addressParts, List.map, List.cons.injEq, and_true] at hparts
    obtain ⟨hmain, hmid, hsub⟩ := hparts
    exact ⟨GetsPart.exec_of_eq (fun _ => rfl) hlt hmain, GetsPart.exec_of_eq (fun _ => rfl) hlt hmid,
      GetsPart.exec_of_eq (fun _ => rfl) hlt hsub⟩
  · exact (packs_adPki re p q r).exec_of_parts hv
      (GetsPart.regs_of_next_next_next (fun _ => rfl) (fun _ => rfl) (fun _ => rfl) hv hdistinct h1 h2 h3)
  · have hp : v ≠ p := by rintro rfl; simp at hdistinct
    have hpq : p ≠ q := by rintro rfl; simp at hdistinct
    obtain ⟨hmain, hsub, -⟩ := GetsPart.regs_of_next_next (fun _ => rfl) (fun _ => rfl) hv hp hpq h1 h2
    exact (packs_adPk2 re p q).exec_of_parts hv (congrArg₂ (fun m u => [m, u]) hmain hsub)
  · exact (packs_adPk3 re p q r).exec_of_parts hv
      (GetsPart.regs_of_next_next_next (fun _ => rfl) (fun _ => rfl) (fun _ => rfl) hv hdistinct h1 h2 h3)
  · simpa using packParts_injective (packParts_individual.mpr h) (packParts_individual.mpr h')
  · simpa using packParts_injective (packParts_group2.mpr h) (packParts_group2.mpr h')
  · simpa using packParts_injective (packParts_group3.mpr h) (packParts_group3.mpr h')

/-- Settles O60: an accepted text is its parts, each a decimal number, and the text of a number has the minimal decimal
of each part. -/
theorem addressTextRoundTrip : Obligations.AddressTextRoundTrip := by
  unfold Obligations.AddressTextRoundTrip
  refine ⟨fun k hi lo => ⟨_, formatAddress_octets hi lo [] k, parseAddress_formatNumber hi lo k⟩,
    fun _ _ _ => formatAddress_of_parseAddress, fun _ _ => parseAddress_eq_error,
    fun _ k hb => formatAddress_of_short hb k, ?_⟩
  have hparse : parseAddress "01.2.3".toList = .ok (.individual, [0x12, 0x03]) := by decide
  have hnormal : normalizeText AddrKind.individual.separator "01.2.3".toList = "1.2.3".toList := by decide
  exact ⟨hparse, hnormal ▸ (formatAddress_of_parseAddress hparse).2⟩

end Sys2Proof.Machine
end

section
/-! SUPPORT. A binary32 pattern as a DPT9 word, and the range of DPT9 (46_dpt9.md R224, R225, R227). -/

namespace Sys2Proof.Machine

open Sys2Proof.Claims

variable {mode : Rounding}

/-- The exact integer of a pattern is its value times 2^149 (46_dpt9.md R224). -/
theorem f32Scaled_div (b : Nat) : (f32Scaled b : ℚ) / (2 ^ 149 : Nat) = f32Value b := by
  have hsign : bits b 31 31 = b / 2 ^ 31 % 2 := bits_eq_div_mod b 31 31
  have hexponent : bits b 30 23 = b / 2 ^ 23 % 256 := bits_eq_div_mod b 30 23
  have hfraction : bits b 22 0 = b % 2 ^ 23 := by simp [bits]
  simp only [f32Scaled, f32Value, hsign, hexponent, hfraction]
  generalize b / 2 ^ 23 % 256 = e
  generalize b % 2 ^ 23 = f
  have hmagnitude : ((if e = 0 then f else (2 ^ 23 + f) * 2 ^ (e - 1) : Nat) : ℚ) / (2 ^ 149 : Nat) =
      if e = 0 then (f : ℚ) * (2 : ℚ) ^ (-149 : ℤ) else ((2 ^ 23 + f : Nat) : ℚ) * (2 : ℚ) ^ ((e : ℤ) - 150) := by
    split
    case isTrue => rw [zpow_neg, div_eq_mul_inv]; norm_cast
    case isFalse he =>
      have hscale : (e : ℤ) - 150 = ((e - 1 : Nat) : ℤ) - (149 : Nat) := by omega
      rw [hscale, zpow_sub₀ two_ne_zero, zpow_natCast, zpow_natCast, Nat.cast_mul, mul_div_assoc]
      norm_cast
  rw [← hmagnitude]
  split
  · rw [Int.cast_neg, neg_div, neg_one_mul, Int.cast_natCast]
  · rw [one_mul, Int.cast_natCast]

/-- An infinity or a NaN is no number to encode (46_dpt9.md R224, R228). -/
theorem d9EncodeF32_of_infinite {b : Nat} (h : f32Infinite b) : d9EncodeF32 mode b = raise .encodingError :=
  if_pos (beq_iff_eq.mpr ((bits_eq_div_mod b 30 23).trans h))

theorem d9EncodeF32_of_finite {b : Nat} (h : ¬ f32Infinite b) :
    d9EncodeF32 mode b = d9Encode mode (100 * f32Scaled b) (2 ^ 149) :=
  if_neg fun hb => h ((bits_eq_div_mod b 30 23).symm.trans (beq_iff_eq.mp hb))

/-- The fraction that the encoder is given is the centi value of the pattern (46_dpt9.md R228). -/
theorem centiScaled_div (b : Nat) : ((100 * f32Scaled b : Int) : ℚ) / (2 ^ 149 : Nat) = 100 * f32Value b := by
  rw [← f32Scaled_div, Int.cast_mul, mul_div_assoc]
  rfl

/-- The word of a finite pattern is that of 100 times its value (46_dpt9.md R225 to R228). -/
theorem d9EncodeF32_eq_ok_iff {b w : Nat} (h : ¬ f32Infinite b) :
    d9EncodeF32 mode b = .ok w ↔ d9Encodes mode (100 * f32Value b) w := by
  rw [d9EncodeF32_of_finite h, d9Encode_eq_ok_iff (Nat.two_pow_pos 149), centiScaled_div]

/-- A larger exponent fits whatever a smaller one does. -/
theorem d9FitsAt_mono {q : ℚ} {E E' : Nat} (h : d9FitsAt q E) (hE : E ≤ E') : d9FitsAt q E' := by
  have hpow : (2 : ℚ) ^ E ≤ 2 ^ E' := pow_le_pow_right₀ one_le_two hE
  obtain ⟨hlow, hhigh⟩ := h
  rw [le_div_iff₀ (by positivity)] at hlow
  rw [div_le_iff₀ (by positivity)] at hhigh
  rw [d9FitsAt, le_div_iff₀ (by positivity), div_le_iff₀ (by positivity)]
  constructor <;> linarith

/-- The range of DPT9 is what its largest exponent fits (46_dpt9.md R227). -/
theorem d9InRange_iff {q : ℚ} : d9InRange q ↔ d9FitsAt q 15 := by
  rw [d9InRange, d9FitsAt, le_div_iff₀ (by positivity), div_le_iff₀ (by positivity)]
  norm_num

/-- The exponent search fails exactly outside the range of DPT9 (46_dpt9.md R227). -/
theorem d9Search_eq_none_iff {num : Int} {den : Nat} (hd : 0 < den) :
    d9Search num den = none ↔ ¬ d9InRange ((num : ℚ) / den) := by
  simp only [d9Search, List.find?_eq_none, List.mem_range, d9Fits_iff hd, d9InRange_iff]
  exact ⟨fun h => h 15 (by decide), fun h E hE hfits => h (d9FitsAt_mono hfits (Nat.le_of_lt_succ hE))⟩

theorem d9EncodeF32_of_not_inRange {b : Nat} (h : ¬ f32Infinite b) (hout : ¬ d9InRange (100 * f32Value b)) :
    d9EncodeF32 mode b = raise .rangeError := by
  rw [← centiScaled_div] at hout
  rw [d9EncodeF32_of_finite h, d9Encode, (d9Search_eq_none_iff (Nat.two_pow_pos 149)).mpr hout]

theorem exists_d9EncodeF32_of_inRange {b : Nat} (h : ¬ f32Infinite b) (hin : d9InRange (100 * f32Value b)) :
    ∃ w, d9EncodeF32 mode b = .ok w := by
  rw [← centiScaled_div] at hin
  obtain ⟨E, hE⟩ := Option.ne_none_iff_exists'.mp ((d9Search_eq_none_iff (Nat.two_pow_pos 149)).not_left.mpr hin)
  exact ⟨_, (d9EncodeF32_of_finite h).trans (d9Encode_eq_ok.mpr ⟨E, hE, rfl⟩)⟩

end Sys2Proof.Machine
end

section
/-! SUPPORT. What AP.WR makes of a payload, where its checks raise, and its frame (45_apdu.md R203, R204). -/

namespace Sys2Proof.Machine

open Sys2Proof.Claims

variable {s t : State} {p q : List Byte} {p0 off : Nat}

/-! ### The octets stored -/

/-- A single octet below 0x3F is ORed into the octet at `off`. -/
theorem apWrOctets_of_packed {b o : Byte} (hb : b.toNat < 0x3F) (hw : off + 1 ≤ s.flen.toNat)
    (ho : s.fb.readByte off = some o) : apWrOctets s [b] b.toNat off = .ok [o ||| b] := by
  have hor : beOctets 1 (o.toNat ||| b.toNat) = [o ||| b] := by
    rw [← BitVec.toNat_or]
    simp [beOctets]
  rw [← hor, apWrOctets, if_pos ⟨rfl, hb⟩, memRead_of_readByte hw ho]
  rfl

/-- A payload that is neither packed nor a float is stored as it is. -/
theorem apWrOctets_of_copied (h1 : p.length = 1 → 0x3F ≤ p0) (h4 : p.length ≠ 4) : apWrOctets s p p0 off = .ok p := by
  rw [apWrOctets, if_neg fun hpack => absurd hpack.2 (Nat.not_lt.mpr (h1 hpack.1)), if_neg h4]
  rfl

theorem apWrOctets_of_float (h4 : p.length = 4) :
    apWrOctets s p p0 off = (d9EncodeF32 s.config.d9Round (beNat p) >>= fun w => .ok (beOctets 2 w)) := by
  rw [apWrOctets, if_neg (by omega), if_pos h4]
  rfl

theorem apWrDest_of_float : apWrDest 4 p0 off = off + 1 := if_pos (.inl rfl)

/-- AP.WR stores two octets for a float and as many as the payload has for any other. -/
theorem length_of_apWrOctets (h : apWrOctets s p p0 off = .ok q) : q.length = if p.length = 4 then 2 else p.length := by
  unfold apWrOctets at h
  split at h
  case isTrue hpack =>
    obtain ⟨o, -, h⟩ := bind_eq_ok.mp h
    cases h
    simp [hpack.1]
  case isFalse =>
    split at h
    case isTrue h4 =>
      obtain ⟨w, -, h⟩ := bind_eq_ok.mp h
      cases h
      simp [h4]
    case isFalse h4 =>
      cases h
      rw [if_neg h4]

/-! ### The frame -/

/-- What a completed AP.WR has written: nothing for an empty payload, else octets at `apWrDest`, two for a float and as
many as the payload has for any other (45_apdu.md R203, R204). -/
theorem apWrBody_ok {ra rb rc : Reg} (h : apWrBody ra rb rc s = .ok t) :
    ∃ p, s.fb.readOctets (s.reg ra) (s.reg rb) = .ok p ∧
      (s.reg rb = 0 ∧ t = s ∨
       ∃ q, apWrOctets s p (p.headD 0).toNat (s.reg rc) = .ok q ∧
         q.length = (if s.reg rb = 4 then 2 else s.reg rb) ∧
         apWrDest (s.reg rb) (p.headD 0).toNat (s.reg rc) + q.length ≤ s.flen.toNat ∧
         t = { s with fb := s.fb.writeOctets (apWrDest (s.reg rb) (p.headD 0).toNat (s.reg rc)) q }) := by
  obtain ⟨p, hread, hcase⟩ := apWrBody_eq_ok.mp h
  obtain ⟨-, hread⟩ := memReadOctets_eq_ok.mp hread
  refine ⟨p, hread, hcase.imp_right ?_⟩
  rintro ⟨-, q, hq, hstore⟩
  obtain ⟨hw, rfl⟩ := memWriteOctets_eq_ok.mp hstore
  have hlen : p.length = s.reg rb := (Memory.readOctets_eq_ok.mp hread).1
  exact ⟨q, hq, hlen ▸ length_of_apWrOctets hq, hw, rfl⟩

/-- A command that ends with LASTERR 0 has completed (60_exceptions.md R326, R327). -/
theorem finish_eq_next_of_lasterr {i : Instr} {x : Except Stop State} (h : finish i s x = .next t)
    (ht : t.lasterr = 0) : ∃ u, x = .ok u ∧ t = u.complete := by
  rcases finish_eq_next h with hok | ⟨e, _, rfl⟩
  · exact hok
  · exact absurd ht (raiseError_lasterr_ne_zero s e _)

/-- A completed AP.WR of one octet has stored one octet at its destination, inside the window. -/
theorem exec_apWr_single {ra rb rc : Reg} {b : Byte} (hn : s.reg rb = 1) (hb : s.fb.readByte (s.reg ra) = some b)
    (h : exec (.apWr ra rb rc) s = .next t) (ht : t.lasterr = 0) :
    ∃ c, apWrOctets s [b] b.toNat (s.reg rc) = .ok [c] ∧ apWrDest 1 b.toNat (s.reg rc) + 1 ≤ s.flen.toNat ∧
      t.fb.readByte (apWrDest 1 b.toNat (s.reg rc)) = some c := by
  obtain ⟨u, hu, rfl⟩ := finish_eq_next_of_lasterr h ht
  obtain ⟨p, hread, ⟨hzero, -⟩ | ⟨q, hq, hlen, hw, rfl⟩⟩ := apWrBody_ok hu
  · omega
  · rw [hn] at hread hlen hw ⊢
    obtain rfl : [b] = p := by
      have hsingle := Memory.readOctets_eq_ok.mpr ⟨rfl, holds_singleton hb⟩
      exact Except.ok.inj (hsingle.symm.trans hread)
    obtain ⟨c, rfl⟩ := List.length_eq_one_iff.mp hlen
    exact ⟨c, hq, hw, (storedAt_writeOctets s.fb _ [c]).1 0 Nat.one_pos⟩

/-- The class of a payload of one octet (45_apdu.md R201). -/
theorem lengthClassIs_one {p0 c : Nat} : lengthClassIs 1 p0 c ↔ p0 < 0x3F ∧ c = 1 ∨ 0x3F ≤ p0 ∧ c = 2 := by
  simp [lengthClassIs]

/-- An octet below 0x3F, packed where bits 5:0 were clear, comes back under their mask (45_apdu.md R207). -/
theorem or_and_mask_of_packed {b o : Byte} (hb : b.toNat < 0x3F) (ho : o &&& 0x3F = 0) : (o ||| b) &&& 0x3F = b := by
  have hkeep : b &&& 0x3F = b := by
    apply BitVec.eq_of_toNat_eq
    rw [BitVec.toNat_and]
    exact (Nat.and_two_pow_sub_one_eq_mod b.toNat 6).trans (Nat.mod_eq_of_lt (by omega))
  rw [BitVec.and_comm, BitVec.and_or_distrib_left, BitVec.and_comm _ o, BitVec.and_comm _ b, ho, hkeep]
  exact BitVec.zero_or

/-! ### The checks -/

/-- A payload that leaves the window raises before it is looked at, empty ranges included (20_memory.md R64). -/
theorem apWrBody_of_gt {ra rb rc : Reg} (h : s.flen.toNat < s.reg ra + s.reg rb) :
    apWrBody ra rb rc s = raise .frameTooShort := by
  simp only [apWrBody, memReadOctets, checkWindow_of_gt h]
  rfl

section Checks
variable {ra rb rc : Reg} (hlen : p.length = s.reg rb) (hne : s.reg rb ≠ 0)
  (hpw : s.reg ra + s.reg rb ≤ s.flen.toNat) (hp : holds s.fb (s.reg ra) p)
include hlen hne hpw hp

/-- A written payload inside the window is converted, and what it gives is stored. -/
theorem apWrBody_eq_bind_store :
    apWrBody ra rb rc s =
      (apWrOctets s p (p.headD 0).toNat (s.reg rc) >>=
        memWriteOctets s (apWrDest (s.reg rb) (p.headD 0).toNat (s.reg rc))) := by
  have hread : memReadOctets s (s.reg ra) (s.reg rb) = .ok p :=
    memReadOctets_eq_ok.mpr ⟨hpw, Memory.readOctets_eq_ok.mpr ⟨hlen, hp⟩⟩
  simp only [apWrBody, hread, ok_bind, if_neg hne]

/-- AP.WR completes where its payload's conversion gives octets that fit. -/
theorem completesStoring_apWr {a : Nat} (hq : apWrOctets s p (p.headD 0).toNat (s.reg rc) = .ok q)
    (ha : apWrDest (s.reg rb) (p.headD 0).toNat (s.reg rc) = a) (hw : a + q.length ≤ s.flen.toNat) :
    completesStoring (.apWr ra rb rc) s a q := by
  refine completesStoring_of_ok (x := apWrBody ra rb rc s) rfl ?_
  rw [apWrBody_eq_bind_store hlen hne hpw hp, hq, ok_bind, ha]
  exact memWriteOctets_eq_ok.mpr ⟨hw, rfl⟩

/-- An error of the conversion is AP.WR's. -/
theorem apWrBody_of_octets_raise {e : ErrorKind} (hq : apWrOctets s p (p.headD 0).toNat (s.reg rc) = raise e) :
    apWrBody ra rb rc s = raise e := by
  rw [apWrBody_eq_bind_store hlen hne hpw hp, hq]
  rfl

/-- Octets that would leave the window are not stored (20_memory.md R64). -/
theorem apWrBody_of_store_gt (hq : apWrOctets s p (p.headD 0).toNat (s.reg rc) = .ok q)
    (hgt : s.flen.toNat < apWrDest (s.reg rb) (p.headD 0).toNat (s.reg rc) + q.length) :
    apWrBody ra rb rc s = raise .frameTooShort := by
  rw [apWrBody_eq_bind_store hlen hne hpw hp, hq, ok_bind, memWriteOctets, checkWindow_of_gt hgt]
  rfl

/-- A payload that is no float, with a first octet below 0x3F, must fit at `off`: where it is packed the octet there is
read first. -/
theorem apWrBody_of_gt_at_off (h4 : s.reg rb ≠ 4) (h0 : (p.headD 0).toNat < 0x3F)
    (hgt : s.flen.toNat < s.reg rc + s.reg rb) : apWrBody ra rb rc s = raise .frameTooShort := by
  by_cases h1 : p.length = 1
  · refine apWrBody_of_octets_raise hlen hne hpw hp ?_
    rw [apWrOctets, if_pos ⟨h1, h0⟩, memRead_of_gt (by omega)]
    rfl
  · refine apWrBody_of_store_gt hlen hne hpw hp (apWrOctets_of_long h1 (by omega)) ?_
    rwa [apWrDest_of_lt h4 h0, hlen]

/-- A payload that is no float, with a first octet of 0x3F or more, must fit at `off + 1`. -/
theorem apWrBody_of_gt_after_off (h4 : s.reg rb ≠ 4) (h0 : 0x3F ≤ (p.headD 0).toNat)
    (hgt : s.flen.toNat < s.reg rc + 1 + s.reg rb) : apWrBody ra rb rc s = raise .frameTooShort := by
  refine apWrBody_of_store_gt hlen hne hpw hp (apWrOctets_of_copied (fun _ => h0) (by omega)) ?_
  rwa [apWrDest_of_ge h0, hlen]

end Checks

end Sys2Proof.Machine
end

section
/-! The obligations of 45_apdu.md. -/

namespace Sys2Proof.Machine

open Sys2Proof.Claims

/-- Settles O21: a completed AP.WR has written what `apWrBody_ok` says; an error writes no octet. -/
theorem apWrKeepsOtherOctets : Obligations.ApWrKeepsOtherOctets := by
  unfold Obligations.ApWrKeepsOtherOctets
  intro ra rb rc s t h
  rcases finish_eq_next h with ⟨u, hu, rfl⟩ | ⟨e, _, rfl⟩
  · obtain ⟨p, hread, hcase⟩ := apWrBody_ok hu
    refine ⟨fun p' hread' a ha => ?_, fun hnot => absurd hread (hnot p)⟩
    obtain rfl : p = p' := Except.ok.inj (hread.symm.trans hread')
    obtain ⟨-, rfl⟩ | ⟨q, -, hlen, -, rfl⟩ := hcase
    · rfl
    · exact Memory.readByte_writeOctets_outside (by rwa [hlen])
  · exact ⟨fun _ _ _ _ => rfl, fun _ _ => rfl⟩

/-- Settles O44: an empty payload writes nothing, and 0x3F decides whether a single octet is packed or copied. -/
theorem apWrShortPayloads : Obligations.ApWrShortPayloads := by
  unfold Obligations.ApWrShortPayloads
  intro s ra rb rc b o
  refine ⟨fun hn hw => ?empty, fun hn hpw hb hlt ho hw => ?packed, fun hn hpw hb hge hw => ?copied⟩
  case empty =>
    have hzero : s.reg rb = 0 := congrArg BitVec.toNat hn
    have hread : memReadOctets s (s.reg ra) (s.reg rb) = .ok [] := by
      rw [hzero]
      exact memReadOctets_eq_ok.mpr ⟨hw, rfl⟩
    exact finish_of_ok (apWrBody_eq_ok.mpr ⟨[], hread, .inl ⟨hzero, rfl⟩⟩)
  case packed =>
    have hone : s.reg rb = 1 := congrArg BitVec.toNat hn
    exact completesStoring_apWr (p := [b]) hone.symm (by omega) (by rwa [hone]) (holds_singleton hb)
      (apWrOctets_of_packed hlt hw ho) (apWrDest_of_lt (by omega) hlt) hw
  case copied =>
    have hone : s.reg rb = 1 := congrArg BitVec.toNat hn
    exact completesStoring_apWr (p := [b]) hone.symm (by omega) (by rwa [hone]) (holds_singleton hb)
      (apWrOctets_of_copied (fun _ => hge) (by simp)) (apWrDest_of_ge hge) hw

/-- Settles O46: the four octets are the pattern, and the model's encoder gives the word that the rules fix. -/
theorem apWrConvertsFloats : Obligations.ApWrConvertsFloats := by
  unfold Obligations.ApWrConvertsFloats
  intro s ra rb rc b0 b1 b2 b3 w pb off pattern hn hpw hp hfinite hw hdw
  have hfour : s.reg rb = 4 := congrArg BitVec.toNat hn
  have hq : apWrOctets s [b0, b1, b2, b3] b0.toNat (s.reg rc) = .ok (octets 2 w) := by
    rw [apWrOctets_of_float rfl, beNat_quad, (d9EncodeF32_eq_ok_iff hfinite).mpr hw, ok_bind, beOctets_eq_octets]
  exact completesStoring_apWr (p := [b0, b1, b2, b3]) hfour.symm (by omega) (by rwa [hfour]) hp hq
    (hfour ▸ apWrDest_of_float) hdw

/-- Settles O47: the window check of the payload, then the conversion of a float, then the window check of the store. -/
theorem apWrErrorsInOrder : Obligations.ApWrErrorsInOrder := by
  unfold Obligations.ApWrErrorsInOrder
  intro s ra rb rc p
  refine ⟨fun hgt => finish_of_raise (apWrBody_of_gt hgt), fun hpw hlen hp => ⟨?float, ?off, ?afterOff⟩⟩
  case float =>
    rintro b0 b1 b2 b3 rfl
    have hfour : s.reg rb = 4 := hlen.symm
    have hne : s.reg rb ≠ 0 := by omega
    have hq := apWrOctets_of_float (s := s) (p := [b0, b1, b2, b3]) (p0 := b0.toNat) (off := s.reg rc) rfl
    rw [beNat_quad] at hq
    refine ⟨fun hinf => ?infinite, fun hfinite => ⟨fun hout => ?range, fun hin hgt => ?window⟩⟩
    case infinite =>
      rw [d9EncodeF32_of_infinite hinf] at hq
      exact finish_of_raise (apWrBody_of_octets_raise (e := .encodingError) hlen hne hpw hp hq)
    case range =>
      rw [d9EncodeF32_of_not_inRange hfinite hout] at hq
      exact finish_of_raise (apWrBody_of_octets_raise (e := .rangeError) hlen hne hpw hp hq)
    case window =>
      obtain ⟨w, hw⟩ := exists_d9EncodeF32_of_inRange (mode := s.config.d9Round) hfinite hin
      rw [hw] at hq
      refine finish_of_raise (apWrBody_of_store_gt hlen hne hpw hp hq ?_)
      rwa [hfour, apWrDest_of_float, length_beOctets]
  case off => exact fun hne h4 h0 hgt => finish_of_raise (apWrBody_of_gt_at_off hlen hne hpw hp h4 h0 hgt)
  case afterOff => exact fun hne h4 h0 hgt => finish_of_raise (apWrBody_of_gt_after_off hlen hne hpw hp h4 h0 hgt)

/-- Settles O49: class 1 reads the packed octet back under the mask 0x3F, class 2 the copied octet. -/
theorem singleOctetApduRoundTrip : Obligations.SingleOctetApduRoundTrip := by
  unfold Obligations.SingleOctetApduRoundTrip
  intro s t u pb n off ab al cls rd b o c hn hb hc ho hwr ht hfb hflen hbase hcls hal hw
  obtain ⟨d, hd, hdw, hread⟩ := exec_apWr_single (congrArg BitVec.toNat hn) hb hwr ht
  obtain ⟨-, hone, htwo, -⟩ := apRdResultsByClass u rd ab al cls d d
  rw [← hfb] at hread
  obtain ⟨hlt, rfl⟩ | ⟨hge, rfl⟩ := lengthClassIs_one.mp hc
  · obtain ⟨ho, hclear⟩ := ho hlt
    rw [apWrDest_of_lt (by decide) hlt] at hdw hread
    obtain rfl : o ||| b = d := by simpa using (apWrOctets_of_packed hlt hdw ho).symm.trans hd
    rw [← hbase] at hread
    have hback := hone hw hcls hal hread
    rwa [or_and_mask_of_packed hlt hclear] at hback
  · rw [apWrDest_of_ge hge, ← hbase] at hread
    obtain rfl : b = d := by simpa using (apWrOctets_of_copied (fun _ => hge) (by simp)).symm.trans hd
    exact htwo hw hcls hal hread

end Sys2Proof.Machine
end

section
/-! SUPPORT. The DPT9 words by sign, exponent and mantissa, and how encoding rounds (46_dpt9.md R220 to R230). -/

namespace Sys2Proof.Machine

open Sys2Proof.Claims

variable {mode : Rounding} {q q' t : ℚ} {E E' : Nat} {M M' : Int} {w w' : Nat}

/-! ### The fields of a word -/

/-- The document's formula is the signed mantissa scaled by the exponent (46_dpt9.md R220, R222). -/
theorem d9Value_eq (w : Nat) :
    d9Value w = (if 32768 ≤ w then ((w % 2048 : Nat) : Int) - 2048 else (w % 2048 : Nat)) * 2 ^ (w / 2048 % 16) := by
  have hlow : w % 2048 < 2 ^ 11 := Nat.mod_lt _ (by decide)
  have hinvert : w % 2048 ^^^ 0x7FF = 0x7FF - w % 2048 := xor_two_pow_sub_one hlow
  rw [d9Value, hinvert]
  congr 1
  split <;> omega

/-- `M` is a mantissa that a word can hold: 12 signed bits (46_dpt9.md R220). -/
def IsMantissa (M : Int) : Prop := -2048 ≤ M ∧ M ≤ 2047

theorem d9Word_sign (hE : E ≤ 15) : 32768 ≤ d9Word M E ↔ M < 0 := by
  rw [d9Word_eq hE]
  split <;> omega

theorem d9Word_exponent (hE : E ≤ 15) : d9Word M E / 2048 % 16 = E := by
  rw [d9Word_eq hE]
  split <;> omega

theorem d9Word_mantissa (hE : E ≤ 15) : d9Word M E % 2048 = (M % 2048).toNat := by
  rw [d9Word_eq hE]
  split <;> omega

theorem d9Word_lt (hE : E ≤ 15) : d9Word M E < 65536 := by
  rw [d9Word_eq hE]
  split <;> omega

/-- Every 16-bit word has a signed mantissa and an exponent (46_dpt9.md R220). -/
theorem exists_eq_d9Word (hw : w < 65536) : ∃ (E : Nat) (M : Int), E ≤ 15 ∧ IsMantissa M ∧ w = d9Word M E := by
  have hE : w / 2048 % 16 ≤ 15 := by omega
  refine ⟨w / 2048 % 16, (w % 2048 : Nat) - if 32768 ≤ w then 2048 else 0, hE, ?_, ?_⟩
  · unfold IsMantissa
    split <;> omega
  · rw [d9Word_eq hE]
    split_ifs <;> omega

/-- A word is worth its mantissa scaled by its exponent (46_dpt9.md R221). -/
theorem d9Value_d9Word (hE : E ≤ 15) (hM : IsMantissa M) : d9Value (d9Word M E) = M * 2 ^ E := by
  obtain ⟨hlow, hhigh⟩ := hM
  rw [d9Value_eq, d9Word_exponent hE, d9Word_mantissa hE, if_congr (d9Word_sign hE) rfl rfl]
  congr 1
  split <;> omega

/-- A word is canonical if its exponent is 0 or twice its mantissa is none (46_dpt9.md R227). -/
theorem d9Canonical_d9Word (hE : E ≤ 15) (hM : IsMantissa M) :
    d9Canonical (d9Word M E) ↔ E = 0 ∨ ¬ (-1024 ≤ M ∧ M ≤ 1023) := by
  obtain ⟨hlow, hhigh⟩ := hM
  have hsign := d9Word_sign (M := M) hE
  rw [d9Canonical, d9Word_exponent hE, d9Word_mantissa hE]
  omega

/-! ### Rounding to an integer -/

theorem roundsTo_intCast (mode : Rounding) (M : Int) : roundsTo mode M M := by
  cases mode with
  | nearestAway | nearestEven => simp [roundsTo]
  | towardZero => exact ⟨le_rfl, lt_add_one _, mul_self_nonneg _⟩

/-- The two nearest modes go at most one half away. -/
theorem abs_sub_le_half_of_roundsTo (hmode : mode ≠ .towardZero) (h : roundsTo mode t M) : |(M : ℚ) - t| ≤ 1 / 2 := by
  cases mode with
  | nearestAway | nearestEven => exact h.1
  | towardZero => exact absurd rfl hmode

/-- Every mode goes less than 1 away. -/
theorem abs_sub_lt_one_of_roundsTo (h : roundsTo mode t M) : |(M : ℚ) - t| < 1 := by
  by_cases hmode : mode = .towardZero
  · subst hmode
    obtain ⟨hle, hlt, hsign⟩ := h
    have hsame : |(M : ℚ)| * |t| = M * t := by rw [← abs_mul, abs_of_nonneg hsign]
    have hdist : ((M : ℚ) - t) ^ 2 = (|t| - |(M : ℚ)|) ^ 2 := by
      rw [sub_sq, sub_sq, sq_abs, sq_abs]
      linarith
    rw [(sq_eq_sq_iff_abs_eq_abs _ _).mp hdist, abs_of_nonneg (sub_nonneg.mpr hle)]
    linarith
  · linarith [abs_sub_le_half_of_roundsTo hmode h]

/-- Rounding does not pass an integer upward. -/
theorem roundsTo_le {a : Int} (h : roundsTo mode t M) (ha : t ≤ a) : M ≤ a := by
  have hlt : (M : ℚ) < a + 1 := by linarith [(abs_lt.mp (abs_sub_lt_one_of_roundsTo h)).2]
  exact Int.lt_add_one_iff.mp (by exact_mod_cast hlt)

/-- Rounding does not pass an integer downward. -/
theorem le_roundsTo {a : Int} (h : roundsTo mode t M) (ha : a ≤ t) : a ≤ M := by
  have hlt : (a : ℚ) < M + 1 := by linarith [(abs_lt.mp (abs_sub_lt_one_of_roundsTo h)).1]
  exact Int.lt_add_one_iff.mp (by exact_mod_cast hlt)

/-- To the nearest, a larger number never rounds to a smaller integer. -/
theorem roundsTo_mono {t' : ℚ} (hmode : mode ≠ .towardZero) (h : roundsTo mode t M) (h' : roundsTo mode t' M')
    (ht : t ≤ t') : M ≤ M' := by
  by_contra! hlt
  obtain ⟨-, hhigh⟩ := abs_le.mp (abs_sub_le_half_of_roundsTo hmode h)
  obtain ⟨hlow', -⟩ := abs_le.mp (abs_sub_le_half_of_roundsTo hmode h')
  have hstep : (M' : ℚ) + 1 ≤ M := by exact_mod_cast hlt
  obtain rfl : t = t' := by linarith
  exact not_lt_of_roundsTo hmode h' h hlt

/-! ### The exponent and mantissa of a rational -/

/-- The smallest exponent at which `q` fits, and the mantissa rounded there (46_dpt9.md R225, R226). -/
structure D9Parts (mode : Rounding) (q : ℚ) (E : Nat) (M : Int) : Prop where
  exponent_le : E ≤ 15
  fits : d9FitsAt q E
  least : ∀ E' < E, ¬ d9FitsAt q E'
  rounds : roundsTo mode (q / 2 ^ E) M

theorem d9Encodes_iff : d9Encodes mode q w ↔ ∃ E M, D9Parts mode q E M ∧ w = d9Word M E := by
  constructor
  · rintro ⟨E, M, hE, hfits, hleast, hM, rfl⟩
    exact ⟨E, M, ⟨hE, hfits, hleast, hM⟩, (d9Word_eq hE).symm⟩
  · rintro ⟨E, M, ⟨hE, hfits, hleast, hM⟩, rfl⟩
    exact ⟨E, M, hE, hfits, hleast, hM, d9Word_eq hE⟩

/-- A value at its own exponent fits as its mantissa does. -/
theorem d9FitsAt_mul_two_pow : d9FitsAt (M * 2 ^ E) E ↔ IsMantissa M := by
  rw [d9FitsAt, mul_div_cancel_right₀ _ (by positivity), IsMantissa]
  norm_cast

/-- A word is canonical exactly if no smaller exponent fits its value (46_dpt9.md R225, R227). -/
theorem least_iff_d9Canonical (hE : E ≤ 15) (hM : IsMantissa M) :
    (∀ E' < E, ¬ d9FitsAt (M * 2 ^ E) E') ↔ d9Canonical (d9Word M E) := by
  rw [d9Canonical_d9Word hE hM]
  cases E with
  | zero => simp
  | succ k =>
    have hdouble : (M : ℚ) * 2 ^ (k + 1) = (2 * M : Int) * 2 ^ k := by push_cast; ring
    have hbelow : (∀ E' < k + 1, ¬ d9FitsAt (M * 2 ^ (k + 1)) E') ↔ ¬ d9FitsAt (M * 2 ^ (k + 1)) k :=
      ⟨fun h => h k (lt_add_one k), fun h E' hE' hfits => h (d9FitsAt_mono hfits (Nat.le_of_lt_succ hE'))⟩
    rw [hbelow, hdouble, d9FitsAt_mul_two_pow, IsMantissa]
    omega

namespace D9Parts

theorem exponent_le_of_fits (h : D9Parts mode q E M) (hfits : d9FitsAt q E') : E ≤ E' :=
  not_lt.mp fun hlt => h.least E' hlt hfits

theorem unique (h : D9Parts mode q E M) (h' : D9Parts mode q E' M') : E = E' ∧ M = M' := by
  obtain rfl : E = E' := le_antisymm (h.exponent_le_of_fits h'.fits) (h'.exponent_le_of_fits h.fits)
  exact ⟨rfl, roundsTo_unique h.rounds h'.rounds⟩

theorem isMantissa (h : D9Parts mode q E M) : IsMantissa M :=
  ⟨le_roundsTo h.rounds (by exact_mod_cast h.fits.1), roundsTo_le h.rounds (by exact_mod_cast h.fits.2)⟩

theorem value (h : D9Parts mode q E M) : d9Value (d9Word M E) = M * 2 ^ E :=
  d9Value_d9Word h.exponent_le h.isMantissa

/-- A canonical word's own exponent and mantissa are those of its value. -/
theorem of_d9Canonical (hE : E ≤ 15) (hM : IsMantissa M) (hcanonical : d9Canonical (d9Word M E)) :
    D9Parts mode (M * 2 ^ E) E M where
  exponent_le := hE
  fits := d9FitsAt_mul_two_pow.mpr hM
  least := (least_iff_d9Canonical hE hM).mpr hcanonical
  rounds := by
    rw [mul_div_cancel_right₀ _ (by positivity)]
    exact roundsTo_intCast mode M

/-- The value of a word is an integer at every exponent up to the word's own, so nothing is rounded. -/
theorem value_eq_of_word (hM : IsMantissa M) (h : D9Parts mode (M * 2 ^ E) E' M') : M' * 2 ^ E' = M * 2 ^ E := by
  obtain ⟨k, rfl⟩ := Nat.exists_eq_add_of_le (h.exponent_le_of_fits (d9FitsAt_mul_two_pow.mpr hM))
  have hquot : (M : ℚ) * 2 ^ (E' + k) / 2 ^ E' = (M * 2 ^ k : Int) := by
    rw [pow_add, mul_left_comm, mul_div_cancel_left₀ _ (by positivity)]
    push_cast
    rfl
  have hrounds := h.rounds
  rw [hquot] at hrounds
  rw [roundsTo_unique hrounds (roundsTo_intCast mode _), mul_assoc, pow_add, mul_comm (2 ^ k)]

/-- A rational too large for the exponent below has a mantissa of at least 1024 at its own. -/
theorem le_mantissa_of_le (hmode : mode ≠ .towardZero) (h : D9Parts mode q' (E + 1) M') (hfits : d9FitsAt q E)
    (hq : q ≤ q') : 1024 ≤ M' := by
  have hlow : -2048 ≤ q' / 2 ^ E := hfits.1.trans (by gcongr)
  have hhigh : 2047 < q' / 2 ^ E := not_le.mp fun hle => h.least E (lt_add_one E) ⟨hlow, hle⟩
  obtain ⟨hnear, -⟩ := abs_le.mp (abs_sub_le_half_of_roundsTo hmode h.rounds)
  rw [pow_succ, ← div_div] at hnear
  have hgt : (1023 : ℚ) < M' := by linarith
  exact Int.add_one_le_iff.mpr (by exact_mod_cast hgt)

/-- A rational too small for the exponent below has a mantissa of at most -1024 at its own. -/
theorem mantissa_le_of_le (h : D9Parts mode q (E + 1) M) (hfits : d9FitsAt q' E) (hq : q ≤ q') : M ≤ -1024 := by
  have hhigh : q / 2 ^ E ≤ 2047 := le_trans (by gcongr) hfits.2
  have hlow : q / 2 ^ E < -2048 := not_le.mp fun hle => h.least E (lt_add_one E) ⟨hle, hhigh⟩
  refine roundsTo_le h.rounds ?_
  rw [pow_succ, ← div_div]
  push_cast
  linarith

/-- To the nearest, encoding is monotonic: where the exponents differ, the word of the larger exponent has a mantissa of
at least 1024 in magnitude (46_dpt9.md R230 (d)). -/
theorem mono (hmode : mode ≠ .towardZero) (h : D9Parts mode q E M) (h' : D9Parts mode q' E' M') (hq : q ≤ q') :
    M * 2 ^ E ≤ M' * 2 ^ E' := by
  obtain ⟨hlow', -⟩ := h'.isMantissa
  obtain ⟨-, hhigh⟩ := h.isMantissa
  obtain hlt | rfl | hgt := lt_trichotomy E E'
  · obtain ⟨k, rfl⟩ := Nat.exists_eq_add_of_le' (Nat.one_le_of_lt hlt)
    have hk : E ≤ k := Nat.le_of_lt_succ hlt
    have hbig : 1024 ≤ M' := h'.le_mantissa_of_le hmode (d9FitsAt_mono h.fits hk) hq
    calc M * 2 ^ E ≤ 2048 * 2 ^ E := by gcongr; omega
      _ ≤ 2048 * 2 ^ k := by gcongr; norm_num
      _ = 1024 * 2 ^ (k + 1) := by ring
      _ ≤ M' * 2 ^ (k + 1) := by gcongr
  · gcongr
    exact roundsTo_mono hmode h.rounds h'.rounds (by gcongr)
  · obtain ⟨k, rfl⟩ := Nat.exists_eq_add_of_le' (Nat.one_le_of_lt hgt)
    have hk : E' ≤ k := Nat.le_of_lt_succ hgt
    have hsmall : M ≤ -1024 := h.mantissa_le_of_le (d9FitsAt_mono h'.fits hk) hq
    have hpow : (2 : Int) ^ E' ≤ 2 ^ k := by gcongr; norm_num
    calc M * 2 ^ (k + 1) ≤ -1024 * 2 ^ (k + 1) := by gcongr
      _ = -2048 * 2 ^ k := by ring
      _ ≤ -2048 * 2 ^ E' := by linarith
      _ ≤ M' * 2 ^ E' := by gcongr

/-- To the nearest, the value of the word is within half its exponent's unit (46_dpt9.md R230 (c)). -/
theorem abs_sub_le (hmode : mode ≠ .towardZero) (h : D9Parts mode q E M) : 2 * |(M : ℚ) * 2 ^ E - q| ≤ 2 ^ E := by
  have hnear := abs_sub_le_half_of_roundsTo hmode h.rounds
  have hunit : (M : ℚ) * 2 ^ E - q = (M - q / 2 ^ E) * 2 ^ E := by
    rw [sub_mul, div_mul_cancel₀ _ (by positivity)]
  rw [hunit, abs_mul, abs_of_pos (by positivity : (0 : ℚ) < 2 ^ E)]
  have hscaled : |(M : ℚ) - q / 2 ^ E| * 2 ^ E ≤ 1 / 2 * 2 ^ E := by gcongr
  linarith

end D9Parts

/-! ### The encoder -/

theorem d9Encode_of_not_inRange {num : Int} {den : Nat} (hd : 0 < den) (h : ¬ d9InRange ((num : ℚ) / den)) :
    d9Encode mode num den = raise .rangeError := by
  rw [d9Encode, (d9Search_eq_none_iff hd).mpr h]

theorem exists_d9Search_of_inRange {num : Int} {den : Nat} (hd : 0 < den) (h : d9InRange ((num : ℚ) / den)) :
    ∃ E, d9Search num den = some E :=
  Option.ne_none_iff_exists'.mp ((d9Search_eq_none_iff hd).not_left.mpr h)

/-- The model's encoder on a fraction whose exponent the search finds (46_dpt9.md R225 to R227). -/
theorem exists_d9Parts_of_d9Search {num : Int} {den : Nat} (hd : 0 < den) (h : d9Search num den = some E) :
    ∃ M, D9Parts mode ((num : ℚ) / den) E M ∧ d9Encode mode num den = .ok (d9Word M E) := by
  obtain ⟨hE, hfits, hleast⟩ := (d9Search_eq_some hd).mp h
  refine ⟨d9Round mode num (den * 2 ^ E), ⟨hE, hfits, hleast, ?_⟩, d9Encode_eq_ok.mpr ⟨E, h, rfl⟩⟩
  have hround := roundsTo_d9Round mode num (Nat.mul_pos hd (Nat.two_pow_pos E))
  rw [div_div]
  exact_mod_cast hround

/-- The range of DPT9 on integers. -/
theorem d9InRange_intCast {C : Int} : d9InRange C ↔ -67108864 ≤ C ∧ C ≤ 67076096 := by
  rw [d9InRange]
  norm_cast

/-- An integer in range has a DPT9 word, and the encoder gives it (46_dpt9.md R225 to R227). -/
theorem exists_d9Encode_intCast {C : Int} (h : d9InRange C) : ∃ w, d9Encodes mode C w ∧ d9Encode mode C 1 = .ok w := by
  have hquot : (C : ℚ) / (1 : Nat) = C := by rw [Nat.cast_one, div_one]
  obtain ⟨E, hE⟩ := exists_d9Search_of_inRange one_pos (hquot.symm ▸ h)
  obtain ⟨M, hparts, hok⟩ := exists_d9Parts_of_d9Search one_pos hE
  rw [hquot] at hparts
  exact ⟨_, d9Encodes_iff.mpr ⟨E, M, hparts, rfl⟩, hok⟩

/-- The value of a word is in range (46_dpt9.md R227). -/
theorem d9InRange_d9Value (hw : w < 65536) : d9InRange (d9Value w) := by
  obtain ⟨E, M, hE, hM, rfl⟩ := exists_eq_d9Word hw
  rw [d9Value_d9Word hE hM, d9InRange_iff]
  push_cast
  exact d9FitsAt_mono (d9FitsAt_mul_two_pow.mpr hM) hE

/-- Encoding the value of a word gives the canonical word of that value, in every mode (46_dpt9.md R230 (a), (b)). -/
theorem d9Encodes_d9Value {w₀ : Nat} (hw₀ : w₀ < 65536) (h : d9Encodes mode (d9Value w₀) w) :
    w < 65536 ∧ d9Canonical w ∧ d9Value w = d9Value w₀ ∧ (d9Canonical w₀ → w = w₀) := by
  obtain ⟨E₀, M₀, hE₀, hM₀, rfl⟩ := exists_eq_d9Word hw₀
  obtain ⟨E, M, hparts, rfl⟩ := d9Encodes_iff.mp h
  rw [d9Value_d9Word hE₀ hM₀, Int.cast_mul, Int.cast_pow, Int.cast_ofNat] at hparts
  have hvalue : M * 2 ^ E = M₀ * 2 ^ E₀ := hparts.value_eq_of_word hM₀
  have hvalueq : (M₀ : ℚ) * 2 ^ E₀ = M * 2 ^ E := by exact_mod_cast hvalue.symm
  refine ⟨d9Word_lt hparts.exponent_le, ?canonical, ?value, fun hcanonical => ?same⟩
  case canonical =>
    exact (least_iff_d9Canonical hparts.exponent_le hparts.isMantissa).mp (hvalueq ▸ hparts.least)
  case value => rw [hparts.value, d9Value_d9Word hE₀ hM₀, hvalue]
  case same =>
    obtain ⟨rfl, rfl⟩ := hparts.unique (.of_d9Canonical hE₀ hM₀ hcanonical)
    rfl

/-- D9.DEC of a 16-bit word (46_dpt9.md R223). -/
theorem exec_d9Dec_of_lt {s : State} {rd ra : Reg} (hv : s.reg ra < 65536) :
    exec (.d9Dec rd ra) s = .next (written s rd (BitVec.ofInt 32 (d9Decode (s.reg ra)))) := by
  simp only [exec, execD9Dec, u16_of_lt hv]
  rfl

/-- A centi value just written is read back. -/
theorem toInt_written_ofInt (s : State) (rd : Reg) {C : Int} (h : d9InRange C) :
    ((written s rd (BitVec.ofInt 32 C)).x.get rd).toInt = C := by
  obtain ⟨hlow, hhigh⟩ := d9InRange_intCast.mp h
  rw [BitVec.eq_of_toNat_eq (reg_written s rd _)]
  exact BitVec.toInt_ofInt_eq_self (by decide) (by omega) (by omega)

end Sys2Proof.Machine
end

section
/-! The obligations of 46_dpt9.md. -/

namespace Sys2Proof.Machine

open Sys2Proof.Claims

/-- Settles O50: the formula is the signed mantissa scaled by the exponent, and the carrier check comes before it. -/
theorem d9DecodeFollowsTheFormula : Obligations.D9DecodeFollowsTheFormula := by
  unfold Obligations.D9DecodeFollowsTheFormula
  refine ⟨fun w hw => ⟨d9Decode_eq_d9Value hw, (d9Decode_eq_d9Value hw).trans (d9Value_eq w)⟩, fun E hE => ?zero,
    by decide, by decide, fun s rd ra => ⟨fun hv => ?dec, fun hv => ⟨encode (.d9Dec rd ra), ?raises⟩⟩⟩
  case zero =>
    have hE : E ≤ 15 := Nat.le_of_lt_succ hE
    have hword : 2048 * E = d9Word 0 E := by simp [d9Word_eq hE]
    rw [d9Decode_eq_d9Value (by omega), hword, d9Value_d9Word hE (by simp [IsMantissa]), zero_mul]
  case dec =>
    rw [← d9Decode_eq_d9Value hv]
    exact exec_d9Dec_of_lt hv
  case raises => exact finish_of_raise (bind_eq_error.mpr (.inl (u16_of_ge hv)))

/-- Settles O51: the signed register value is the fraction given to the encoder. -/
theorem d9EncodesCentiValues : Obligations.D9EncodesCentiValues := by
  unfold Obligations.D9EncodesCentiValues
  intro s rd ra C
  have hread : toS32 (s.reg ra) = C := toS32_toNat _
  refine ⟨fun hin => ?encodes, fun hout => ?raises⟩
  case encodes =>
    obtain ⟨w, hw, hok⟩ := exists_d9Encode_intCast (mode := s.config.d9Round) (d9InRange_intCast.mpr hin)
    exact ⟨w, hw, exec_of_ok_number rfl (by rw [hread, hok])⟩
  case raises =>
    have hout : ¬ d9InRange C := d9InRange_intCast.not.mpr (by omega)
    have herr : d9Encode s.config.d9Round (toS32 (s.reg ra)) 1 = raise .rangeError := by
      rw [hread]
      exact d9Encode_of_not_inRange one_pos (by rwa [Nat.cast_one, div_one])
    exact finish_of_raise (bind_eq_error.mpr (.inl herr))

/-- Settles O52: 100 times the pattern's exact value is the fraction given to the encoder. -/
theorem d9EncodesBinary32 : Obligations.D9EncodesBinary32 := by
  unfold Obligations.D9EncodesBinary32
  intro s rd ra b i
  refine ⟨fun hinf => ?infinite, fun hfinite => ⟨fun hin => ?encodes, fun hout => ?range⟩⟩
  case infinite => exact finish_of_raise (bind_eq_error.mpr (.inl (d9EncodeF32_of_infinite hinf)))
  case encodes =>
    obtain ⟨w, hw⟩ := exists_d9EncodeF32_of_inRange (mode := s.config.d9Round) hfinite hin
    exact ⟨w, (d9EncodeF32_eq_ok_iff hfinite).mp hw, exec_of_ok_number rfl hw⟩
  case range => exact finish_of_raise (bind_eq_error.mpr (.inl (d9EncodeF32_of_not_inRange hfinite hout)))

/-- Settles O53: D9.DEC leaves the word's value in `x[rd]`, and D9.ENCC gives the canonical word of it. -/
theorem d9RoundTripIsCanonical : Obligations.D9RoundTripIsCanonical := by
  unfold Obligations.D9RoundTripIsCanonical
  intro s rd ra re hv
  obtain ⟨-, -, -, -, hdec⟩ := d9DecodeFollowsTheFormula
  obtain ⟨hdec, -⟩ := hdec s rd ra
  have hin := d9InRange_d9Value hv
  have hread := toInt_written_ofInt s rd hin
  obtain ⟨henc, -⟩ := d9EncodesCentiValues (written s rd (BitVec.ofInt 32 (d9Value (s.x.get ra).toNat))) re rd
  rw [hread] at henc
  obtain ⟨w, hw, hexec⟩ := henc (d9InRange_intCast.mp hin)
  exact ⟨_, w, hdec hv, hexec, d9Encodes_d9Value hv hw⟩

/-- Settles O54: both laws hold of the exponent and mantissa, and the decoded word is the scaled mantissa. -/
theorem d9EncodingIsCloseAndMonotonic : Obligations.D9EncodingIsCloseAndMonotonic := by
  unfold Obligations.D9EncodingIsCloseAndMonotonic
  intro mode hmode
  constructor
  · intro num den hd hlow hhigh
    have hpos : (0 : ℚ) < den := by exact_mod_cast hd
    have hin : d9InRange ((num : ℚ) / den) := by
      rw [d9InRange, le_div_iff₀ hpos, div_le_iff₀ hpos]
      exact_mod_cast And.intro hlow hhigh
    obtain ⟨E, hE⟩ := exists_d9Search_of_inRange hd hin
    obtain ⟨M, hparts, hok⟩ := exists_d9Parts_of_d9Search (mode := mode) hd hE
    refine ⟨E, _, hE, hok, ?_⟩
    have hscale : (M : ℚ) * 2 ^ E * den - num = (M * 2 ^ E - num / den) * den := by
      rw [sub_mul, div_mul_cancel₀ _ hpos.ne']
    have hclose : 2 * |(M : ℚ) * 2 ^ E * den - num| ≤ 2 ^ E * den := by
      rw [hscale, abs_mul, abs_of_pos hpos, ← mul_assoc]
      gcongr
      exact hparts.abs_sub_le hmode
    rw [hparts.value]
    exact_mod_cast hclose
  · intro num num' den den' w w' hd hd' hle hw hw'
    obtain ⟨E, M, hparts, rfl⟩ := d9Encodes_iff.mp ((d9Encode_eq_ok_iff hd).mp hw)
    obtain ⟨E', M', hparts', rfl⟩ := d9Encodes_iff.mp ((d9Encode_eq_ok_iff hd').mp hw')
    rw [hparts.value, hparts'.value]
    refine hparts.mono hmode hparts' ?_
    rw [div_le_div_iff₀ (by exact_mod_cast hd) (by exact_mod_cast hd')]
    exact_mod_cast hle

end Sys2Proof.Machine
end

section
/-! SUPPORT. Which errors a piece of pseudocode can raise (60_exceptions.md R321), and what a completed command keeps of
the error record (R327). -/

namespace Sys2Proof.Machine

open Sys2Proof.Claims

/-- If the pseudocode `x` raises an error, the error's code is among `codes` (60_exceptions.md R320). -/
def RaisesOnly {α : Type} (codes : List Nat) (x : Except Stop α) : Prop := ∀ e, x = raise e → e.code ∈ codes

namespace RaisesOnly

variable {α β : Type} {codes : List Nat} {s : State}

theorem ok (v : α) : RaisesOnly codes (.ok v) := by
  intro e h
  cases h

theorem raise {e : ErrorKind} (h : e.code ∈ codes) : RaisesOnly codes (raise e : Except Stop α) := by
  rintro _ ⟨⟩
  exact h

theorem bind {x : Except Stop α} {f : α → Except Stop β} (hx : RaisesOnly codes x)
    (hf : ∀ v, RaisesOnly codes (f v)) : RaisesOnly codes (x >>= f) := by
  intro e h
  rcases bind_eq_error.mp h with h | ⟨v, _, h⟩
  · exact hx e h
  · exact hf v e h

theorem map {x : Except Stop α} (hx : RaisesOnly codes x) (f : α → β) : RaisesOnly codes (x.map f) := by
  cases x with
  | ok v => exact ok (f v)
  | error e => exact fun k h => hx k (by simpa [Except.map] using h)

theorem ite {p : Prop} [Decidable p] {x y : Except Stop α} (hx : RaisesOnly codes x) (hy : RaisesOnly codes y) :
    RaisesOnly codes (if p then x else y) := by
  split
  · exact hx
  · exact hy

/-! ### Checks and conversions

That the code of each error is among `codes` is found by `simp` where `codes` is a command's row. -/

theorem checkWindow (a n : Nat) (h : 5 ∈ codes := by simp [errorsOf]) : RaisesOnly codes (checkWindow s a n) :=
  .ite (.ok _) (.raise h)

theorem atMost (b v : Nat) {e : ErrorKind} (h : e.code ∈ codes := by simp [errorsOf, ErrorKind.code]) :
    RaisesOnly codes (atMost b e v) :=
  .ite (.raise h) (.ok _)

theorem oct (v : Nat) (h : 2 ∈ codes := by simp [errorsOf]) : RaisesOnly codes (oct v) := .ite (.ok _) (.raise h)

theorem u16 (v : Nat) (h : 2 ∈ codes := by simp [errorsOf]) : RaisesOnly codes (u16 v) := .ite (.ok _) (.raise h)

theorem u24 (v : Nat) (h : 2 ∈ codes := by simp [errorsOf]) : RaisesOnly codes (u24 v) := .ite (.ok _) (.raise h)

theorem checkDate (t : Nat) (h : 2 ∈ codes := by simp [errorsOf]) : RaisesOnly codes (checkDate t) :=
  .ite (.raise h) (.ok _)

theorem checkDptLength (len n : Nat) (h2 : 2 ∈ codes := by simp [errorsOf]) (h5 : 5 ∈ codes := by simp [errorsOf]) :
    RaisesOnly codes (checkDptLength len n) :=
  .ite (.raise h5) (.ite (.raise h2) (.ok _))

theorem checkApduLength (al need : Nat) (h : 5 ∈ codes := by simp [errorsOf]) :
    RaisesOnly codes (checkApduLength al need) :=
  .ite (.raise h) (.ok _)

theorem packIndividual (a l d : Nat) (h : 1 ∈ codes := by simp [errorsOf]) :
    RaisesOnly codes (packIndividual a l d) :=
  .ite (.raise h) (.ok _)

theorem packGroup2 (m u : Nat) (h : 1 ∈ codes := by simp [errorsOf]) : RaisesOnly codes (packGroup2 m u) :=
  .ite (.raise h) (.ok _)

theorem packGroup3 (m i u : Nat) (h : 1 ∈ codes := by simp [errorsOf]) : RaisesOnly codes (packGroup3 m i u) :=
  .ite (.raise h) (.ok _)

theorem encodeSigned (n v : Nat) (h : 2 ∈ codes := by simp [errorsOf]) : RaisesOnly codes (encodeSigned n v) :=
  .ite (.raise h) (.ok _)

theorem d9Encode (mode : Rounding) (num : Int) (den : Nat) (h : 2 ∈ codes := by simp [errorsOf]) :
    RaisesOnly codes (d9Encode mode num den) := by
  unfold Machine.d9Encode
  split
  · exact .raise h
  · exact .ok _

theorem d9EncodeF32 (mode : Rounding) (b : Nat) (h4 : 4 ∈ codes := by simp [errorsOf])
    (h2 : 2 ∈ codes := by simp [errorsOf]) : RaisesOnly codes (d9EncodeF32 mode b) :=
  .ite (.raise h4) (.d9Encode _ _ _ h2)

theorem dptEncode (mode : Rounding) (v : Nat) (d : Dpt) (h : 2 ∈ codes := by simp [errorsOf]) :
    RaisesOnly codes (dptEncode mode v d) := by
  cases d with
  | bool | dimming | unsigned8 | unsigned16 => exact .atMost _ v h
  | signed8 | signed16 => exact .encodeSigned _ v h
  | float16 => exact .d9Encode _ _ _ h
  | time => exact (u24 v h).map _
  | date => exact (u24 v h).bind fun t => .checkDate t h
  | unsigned32 | signed32 | float32 => exact .ok _
  | rgb => exact .u24 v h

theorem dptDecode (o : Nat) (d : Dpt) (h : 2 ∈ codes := by simp [errorsOf]) : RaisesOnly codes (dptDecode o d) := by
  cases d with
  | bool | dimming => exact (atMost _ o h).map _
  | date => exact (checkDate o h).map _
  | unsigned8 | signed8 | unsigned16 | signed16 | float16 | time | unsigned32 | signed32 | float32 | rgb => exact .ok _

/-! ### Access through the window -/

theorem memReadOctets (a n : Nat) (h : 5 ∈ codes := by simp [errorsOf]) : RaisesOnly codes (memReadOctets s a n) := by
  intro e he
  rcases memReadOctets_eq_error he with ⟨_, he⟩ | ⟨_, k, he, _⟩
  · cases he
    exact h
  · cases he

theorem memRead (a n : Nat) (h : 5 ∈ codes := by simp [errorsOf]) : RaisesOnly codes (memRead s a n) :=
  (memReadOctets a n h).map beNat

theorem memWriteOctets (a : Nat) (bs : List Byte) (h : 5 ∈ codes := by simp [errorsOf]) :
    RaisesOnly codes (memWriteOctets s a bs) :=
  (checkWindow a _ h).bind fun _ => .ok _

/-! ### Bodies -/

theorem loadBody (n : Nat) (rd ra : Reg) (imm : Byte) (h : 5 ∈ codes := by simp [errorsOf]) :
    RaisesOnly codes (loadBody n rd ra imm s) :=
  (memRead _ n h).bind fun _ => .ok _

theorem storeBody {carrier : Nat → Except Stop Nat} (hc : ∀ v, RaisesOnly codes (carrier v)) (n : Nat) (rb ra : Reg)
    (imm : Byte) (h : 5 ∈ codes := by simp [errorsOf]) : RaisesOnly codes (storeBody n carrier rb ra imm s) :=
  (hc _).bind fun _ => .memWriteOctets _ _ h

theorem getFieldBody (hi lo : Nat) (rd ra : Reg) (h : 2 ∈ codes := by simp [errorsOf]) :
    RaisesOnly codes (getFieldBody hi lo rd ra s) :=
  (oct _ h).bind fun _ => .ok _

theorem setFieldBody (hi lo bound : Nat) (rd ra rb : Reg) {e : ErrorKind} (h : 2 ∈ codes := by simp [errorsOf])
    (he : e.code ∈ codes := by simp [errorsOf, ErrorKind.code]) :
    RaisesOnly codes (setFieldBody hi lo bound e rd ra rb s) :=
  (oct _ h).bind fun _ => (atMost bound _ he).bind fun _ => .ok _

theorem addressPartBody (hi lo : Nat) (rd ra : Reg) (h : 2 ∈ codes := by simp [errorsOf]) :
    RaisesOnly codes (addressPartBody hi lo rd ra s) :=
  (u16 _ h).bind fun _ => .ok _

theorem apWrBody (ra rb rc : Reg) (h5 : 5 ∈ codes := by simp [errorsOf]) (h4 : 4 ∈ codes := by simp [errorsOf])
    (h2 : 2 ∈ codes := by simp [errorsOf]) : RaisesOnly codes (apWrBody ra rb rc s) := by
  have hoctets : ∀ p p0 off, RaisesOnly codes (apWrOctets s p p0 off) := fun p _ off =>
    .ite ((memRead off 1 h5).bind fun _ => .ok _) (.ite ((d9EncodeF32 _ (beNat p) h4 h2).bind fun _ => .ok _) (.ok _))
  exact (memReadOctets _ _ h5).bind fun _ =>
    .ite (.ok _) ((hoctets _ _ _).bind fun _ => .memWriteOctets _ _ h5)

theorem apRdBody (rd ra rb rc : Reg) (h : 5 ∈ codes := by simp [errorsOf]) :
    RaisesOnly codes (apRdBody rd ra rb rc s) := by
  have hdelivery : ∀ al need a n kind f, RaisesOnly codes (apduDelivery rd al need a n kind f s) :=
    fun al need a n _ _ => (checkApduLength al need h).bind fun _ => (memRead a n h).bind fun _ => .ok _
  refine (checkWindow _ _ h).bind fun _ => ?_
  split
  · exact .ok _
  · exact hdelivery _ _ _ _ _ _
  · exact hdelivery _ _ _ _ _ _
  · exact hdelivery _ _ _ _ _ _
  · exact .ok _

theorem dptEncBody (d : Dpt) (rd ra rb : Reg) (h2 : 2 ∈ codes := by simp [errorsOf])
    (h5 : 5 ∈ codes := by simp [errorsOf]) : RaisesOnly codes (dptEncBody d rd ra rb s) :=
  (dptEncode _ _ d h2).bind fun _ => (memWriteOctets _ _ h5).bind fun _ => .ok _

theorem dptDecBody (d : Dpt) (rd ra rb : Reg) (h2 : 2 ∈ codes := by simp [errorsOf])
    (h5 : 5 ∈ codes := by simp [errorsOf]) : RaisesOnly codes (dptDecBody d rd ra rb s) :=
  (checkWindow _ _ h5).bind fun _ => (checkDptLength _ _ h2 h5).bind fun _ =>
    (memRead _ _ h5).bind fun _ => (dptDecode _ d h2).bind fun _ => .ok _

end RaisesOnly

/-- The body of a well-formed command raises only the errors of the command's row (60_exceptions.md R321). -/
theorem exec_raisesOnly {i : Instr} (hi : i.wf = true) (s : State) :
    ∃ x, exec i s = finish i s x ∧ RaisesOnly (errorsOf i) x := by
  cases i with
  | nop | li | csrrLasterr | csrrFaults | csrrErrcmd | csrrFlen | csrrRkind | csrrRlen | csrwFaults =>
    exact ⟨_, rfl, .ok _⟩
  | csrwFlen => exact ⟨_, rfl, (RaisesOnly.atMost _ _).bind fun _ => .ok _⟩
  | ldo | ld16 | ld32 => exact ⟨_, rfl, .loadBody _ _ _ _⟩
  | sto => exact ⟨_, rfl, .storeBody (fun _ => .oct _) _ _ _ _⟩
  | st16 => exact ⟨_, rfl, .storeBody (fun _ => .u16 _) _ _ _ _⟩
  | st32 => exact ⟨_, rfl, .storeBody .ok _ _ _ _⟩
  | bfGet => exact ⟨_, exec_bfGet_of_le (of_decide_eq_true hi), .getFieldBody _ _ _ _⟩
  | bfSet => exact ⟨_, exec_bfSet_of_le (of_decide_eq_true hi), .setFieldBody _ _ _ _ _ _⟩
  | cfGft | cfGrp | cfGpr | cfGtt | ecfGat | ecfGhc | ecfGef => exact ⟨_, rfl, .getFieldBody _ _ _ _⟩
  | cfSft | cfSrp | cfSpr | cfStt | ecfSat | ecfShc | ecfSef => exact ⟨_, rfl, .setFieldBody _ _ _ _ _ _⟩
  | adPki => exact ⟨_, rfl, (RaisesOnly.packIndividual _ _ _).bind fun _ => .ok _⟩
  | adPk2 => exact ⟨_, rfl, (RaisesOnly.packGroup2 _ _).bind fun _ => .ok _⟩
  | adPk3 => exact ⟨_, rfl, (RaisesOnly.packGroup3 _ _ _).bind fun _ => .ok _⟩
  | adGetIndArea | adGetIndLine | adGetIndDev | adGetG2Main | adGetG2Sub | adGetG3Main | adGetG3Mid | adGetG3Sub =>
    exact ⟨_, rfl, .addressPartBody _ _ _ _⟩
  | apDlen =>
    exact ⟨_, rfl, (RaisesOnly.checkWindow _ _).bind fun _ =>
      .ite ((RaisesOnly.memRead _ _).bind fun _ => .ok _) (.ok _)⟩
  | apWr => exact ⟨_, rfl, .apWrBody _ _ _⟩
  | apRd => exact ⟨_, rfl, .apRdBody _ _ _ _⟩
  | d9Dec => exact ⟨_, rfl, (RaisesOnly.u16 _).bind fun _ => .ok _⟩
  | d9Encf => exact ⟨_, rfl, (RaisesOnly.d9EncodeF32 _ _).bind fun _ => .ok _⟩
  | d9Encc => exact ⟨_, rfl, (RaisesOnly.d9Encode _ _ _).bind fun _ => .ok _⟩
  | dptEnc1 | dptEnc3 | dptEnc5 | dptEnc6 | dptEnc7 | dptEnc8 | dptEnc9 | dptEnc10 | dptEnc11 | dptEnc12 | dptEnc13
  | dptEnc14 | dptEnc232 => exact ⟨_, rfl, .dptEncBody _ _ _ _⟩
  | dptDec1 | dptDec3 | dptDec5 | dptDec6 | dptDec7 | dptDec8 | dptDec9 | dptDec10 | dptDec11 | dptDec12 | dptDec13
  | dptDec14 | dptDec232 => exact ⟨_, rfl, .dptDecBody _ _ _ _⟩
  | dptEncOther | dptDecOther => exact ⟨_, rfl, .raise (by simp [errorsOf, ErrorKind.code])⟩

variable {i : Instr} {s t : State}

/-- No write of a command reaches ERRCMD, and only CSRW FAULTS's reaches FAULTS. -/
theorem Effect.errcmd_faults (h : Effect i s t) :
    t.errcmd = s.errcmd ∧ ((∀ ra, i ≠ .csrwFaults ra) → t.faults = s.faults) := by
  cases h with
  | nothing | register | window | octets | octetsAndRegister | delivery => exact ⟨rfl, fun _ => rfl⟩
  | faults ra hi => exact ⟨rfl, fun hn => absurd hi (hn ra)⟩

/-- The word that a decoded command records when it raises is the word issued (60_exceptions.md R326). -/
theorem exists_raiseError_encode_eq_raised {w : Word} (hw : decode w = .ok i) (s : State) (e : ErrorKind) :
    ∃ k, 1 ≤ k ∧ k ≤ 6 ∧ s.raiseError e (encode i) = raised s k w := by
  obtain ⟨hlow, hhigh⟩ := code_range e
  rw [(encodeOfDecodeIsIdentity w i hw).2]
  exact ⟨e.code, hlow, hhigh, rfl⟩

end Sys2Proof.Machine
end

section
/-! SUPPORT. DPT.ENC and DPT.DEC of the thirteen selectors: the decoder's conversions as the rules state them, where the
two commands raise, and that the conversions undo each other (47_dpt_general.md R250 to R280). -/

namespace Sys2Proof.Machine

open Sys2Proof.Claims

variable {s t : State} {d : Dpt} {rd ra rb : Reg} {mode : Rounding} {o : Nat} {v : Word}

/-! ### Decoding a datapoint value -/

theorem exec_decodeOf (d : Dpt) (rd ra rb : Reg) (s : State) :
    exec (decodeOf d rd ra rb) s = finish (decodeOf d rd ra rb) s (dptDecBody d rd ra rb s) := by
  cases d <;> rfl

theorem ofNat_eq_iff_toNat_eq (h : o < 2 ^ 32) : BitVec.ofNat 32 o = v ↔ v.toNat = o := by
  rw [← BitVec.toNat_inj, BitVec.toNat_ofNat, Nat.mod_eq_of_lt h, eq_comm]

theorem ofInt_eq_iff_toInt_eq {i : Int} (hlow : -2 ^ 31 ≤ i) (hhigh : i < 2 ^ 31) :
    BitVec.ofInt 32 i = v ↔ v.toInt = i := by
  rw [← BitVec.toInt_inj, BitVec.toInt_ofInt_eq_self (by decide) hlow hhigh, eq_comm]

/-- The signed reading of a pattern, by its size in place of its sign bit (00_scope.md R9). -/
theorem sext_eq {n : Nat} (h : o < 2 ^ (n + 1)) :
    sext (n + 1) o = if o < 2 ^ n then (o : Int) else o - 2 ^ (n + 1) := by
  have hsign : bits o n n = 1 ↔ ¬ o < 2 ^ n := by
    have hquot : o / 2 ^ n < 2 := Nat.div_lt_of_lt_mul (by rwa [← pow_succ])
    rw [bits_eq_div_mod, Nat.sub_self, Nat.not_lt, ← Nat.one_le_div_iff (Nat.two_pow_pos n)]
    generalize o / 2 ^ n = q at hquot
    omega
  simp only [sext, Nat.add_sub_cancel, hsign, ite_not]

/-- A number that passes a check and is written unchanged. -/
theorem map_ofNat_eq_ok {x : Except Stop Nat} {p : Prop} (hx : ∀ n, x = .ok n ↔ p ∧ n = o) (ho : o < 2 ^ 32) :
    x.map (BitVec.ofNat 32) = .ok v ↔ p ∧ v.toNat = o := by
  simp only [map_eq_ok, hx, and_assoc, exists_and_left, exists_eq_left, ofNat_eq_iff_toNat_eq ho]

/-- DPT.DEC's conversion of a number of the type's width gives the value that 47_dpt_general.md R255 to R279 fix, and
gives one only where they do. -/
theorem dptDecode_eq_ok (ho : o < 256 ^ widthOf d) : dptDecode o d = .ok v ↔ decodesAs o v d := by
  have hword : o < 2 ^ 32 := ho.trans_le (by cases d <;> decide)
  cases d with
  | bool | dimming => exact map_ofNat_eq_ok (fun _ => atMost_eq_ok) hword
  | date => exact map_ofNat_eq_ok (fun _ => checkDate_eq_ok ho) hword
  | unsigned8 | unsigned16 | unsigned32 | signed32 | float32 | rgb =>
    rw [dptDecode, Except.ok.injEq]
    exact ofNat_eq_iff_toNat_eq hword
  | time =>
    have hmasked : maskedTime o < 2 ^ 32 := by unfold maskedTime; omega
    rw [dptDecode, and_timeMask, Except.ok.injEq]
    exact ofNat_eq_iff_toNat_eq hmasked
  | signed8 | signed16 =>
    simp only [widthOf, Nat.reducePow] at ho
    rw [dptDecode, sext_eq ho, Except.ok.injEq]
    exact ofInt_eq_iff_toInt_eq (by split <;> omega) (by split <;> omega)
  | float16 =>
    obtain ⟨hlow, hhigh⟩ := d9InRange_intCast.mp (d9InRange_d9Value ho)
    rw [dptDecode, d9Decode_eq_d9Value ho, Except.ok.injEq]
    exact ofInt_eq_iff_toInt_eq (by omega) (by omega)

/-! ### The octets of a number -/

@[simp] theorem length_octets (n o : Nat) : (octets n o).length = n := by simp [octets]

theorem beNat_octets {n : Nat} (ho : o < 256 ^ n) : beNat (octets n o) = o := by
  rw [← beOctets_eq_octets, beNat_beOctets, Nat.mod_eq_of_lt ho]

theorem octets_beNat (bs : List Byte) : octets bs.length (beNat bs) = bs := by
  rw [← beOctets_eq_octets, beOctets_beNat]

/-- The octets of a number inside the window are read as the number. -/
theorem memRead_of_holds_octets {a n : Nat} (ho : o < 256 ^ n) (hw : a + n ≤ s.flen.toNat)
    (hp : holds s.fb a (octets n o)) : memRead s a n = .ok o := by
  have hread := memRead_of_holds (p := octets n o) (by rwa [length_octets]) hp
  rwa [length_octets, beNat_octets ho] at hread

/-! ### The checks -/

/-- A conversion that gives nothing raises its one error. -/
theorem exists_raise_of_ne_ok {α : Type} {x : Except Stop α} {code : Nat} (hstop : StopsAtUnwritten .reset x)
    (hraises : RaisesOnly [code] x) (hok : ∀ a, x ≠ .ok a) : ∃ e, x = raise e ∧ e.code = code := by
  cases hx : x with
  | ok a => exact absurd hx (hok a)
  | error r =>
    cases r with
    | raise e => exact ⟨e, rfl, List.mem_singleton.mp (hraises e hx)⟩
    | unspecified a => exact absurd (hstop a hx).1 (Nat.not_lt_zero a)

/-- DPT.ENC of a value it cannot encode raises RangeError before the window is checked (47_dpt_general.md R251). -/
theorem exec_encodeOf_of_not_encodesAs (h : ∀ o, ¬ encodesAs s.config.d9Round (s.x.get ra) o d) :
    exec (encodeOf d rd ra rb) s = .next (raised s 2 (encode (encodeOf d rd ra rb))) := by
  obtain ⟨e, he, hcode⟩ := exists_raise_of_ne_ok (code := 2) (.dptEncode s.config.d9Round (s.reg ra) d)
    (.dptEncode _ _ d (by simp)) fun o ho => h o (dptEncode_eq_ok.mp ho)
  rw [exec_encodeOf, ← hcode]
  exact finish_of_raise (bind_eq_error.mpr (.inl he))

/-- DPT.ENC of a value it can encode raises FrameTooShort where the octets leave the window (47_dpt_general.md R251). -/
theorem exec_encodeOf_of_gt (ho : encodesAs s.config.d9Round (s.x.get ra) o d)
    (hgt : s.flen.toNat < s.reg rb + widthOf d) :
    exec (encodeOf d rd ra rb) s = .next (raised s 5 (encode (encodeOf d rd ra rb))) := by
  have hencode : dptEncode s.config.d9Round (s.reg ra) d = .ok o := dptEncode_eq_ok.mpr ho
  rw [← dptWidth_eq_widthOf] at hgt
  rw [exec_encodeOf]
  refine finish_of_raise (e := .frameTooShort) ?_
  rw [dptEncBody, hencode, ok_bind, memWrite_of_gt hgt]
  rfl

theorem checkDptLength_of_lt {len n : Nat} (h : len < n) : checkDptLength len n = raise .frameTooShort := if_pos h

theorem checkDptLength_of_gt {len n : Nat} (h : n < len) : checkDptLength len n = raise .rangeError :=
  (if_neg h.not_gt).trans (if_pos h)

theorem checkDptLength_self (n : Nat) : checkDptLength n n = .ok () := checkDptLength_eq_ok.mpr rfl

/-- DPT.DEC of a range that leaves the window, or is shorter than the type, raises (47_dpt_general.md R252). -/
theorem dptDecBody_of_short (h : s.flen.toNat < s.reg ra + s.reg rb ∨ s.reg rb < widthOf d) :
    dptDecBody d rd ra rb s = raise .frameTooShort := by
  by_cases hw : s.reg ra + s.reg rb ≤ s.flen.toNat
  · have hlen : s.reg rb < dptWidth d := by rw [dptWidth_eq_widthOf]; omega
    simp only [dptDecBody, checkWindow_of_le hw, ok_bind, checkDptLength_of_lt hlen]
    rfl
  · rw [dptDecBody, checkWindow_of_gt (by omega)]
    rfl

/-- DPT.DEC of a range longer than the type raises (47_dpt_general.md R252). -/
theorem dptDecBody_of_long (hw : s.reg ra + s.reg rb ≤ s.flen.toNat) (hlen : widthOf d < s.reg rb) :
    dptDecBody d rd ra rb s = raise .rangeError := by
  rw [← dptWidth_eq_widthOf] at hlen
  simp only [dptDecBody, checkWindow_of_le hw, ok_bind, checkDptLength_of_gt hlen]
  rfl

/-- DPT.DEC of a range of the type's width that holds a number converts the number. -/
theorem dptDecBody_of_holds (hw : s.reg ra + widthOf d ≤ s.flen.toNat) (hlen : s.reg rb = widthOf d)
    (ho : o < 256 ^ widthOf d) (hp : holds s.fb (s.reg ra) (octets (widthOf d) o)) :
    dptDecBody d rd ra rb s = (dptDecode o d >>= fun v => .ok (s.setReg rd v)) := by
  have hread : memRead s (s.reg ra) (widthOf d) = .ok o := memRead_of_holds_octets ho hw hp
  simp only [dptDecBody, dptWidth_eq_widthOf, hlen, checkWindow_of_le hw, checkDptLength_self, hread, ok_bind,
    pure_eq_ok]

/-- DPT.DEC of octets outside the type's value set raises RangeError (47_dpt_general.md R252). -/
theorem exec_decodeOf_of_not_decodesAs (hw : s.reg ra + s.reg rb ≤ s.flen.toNat) (hlen : s.reg rb = widthOf d)
    (ho : o < 256 ^ widthOf d) (hp : holds s.fb (s.reg ra) (octets (widthOf d) o)) (h : ∀ v, ¬ decodesAs o v d) :
    exec (decodeOf d rd ra rb) s = .next (raised s 2 (encode (decodeOf d rd ra rb))) := by
  obtain ⟨e, he, hcode⟩ := exists_raise_of_ne_ok (code := 2) (.dptDecode o d) (.dptDecode o d (by simp))
    fun v hv => h v ((dptDecode_eq_ok ho).mp hv)
  rw [exec_decodeOf, dptDecBody_of_holds (hlen ▸ hw) hlen ho hp, ← hcode]
  exact finish_of_raise (bind_eq_error.mpr (.inl he))

/-! ### The conversions undo each other -/

/-- A value is encoded as a number of the type's width. -/
theorem lt_of_encodesAs (h9 : d ≠ .float16) (h : encodesAs mode v o d) : o < 256 ^ widthOf d := by
  have hv := v.isLt
  cases d with
  | float16 => exact absurd rfl h9
  | bool | dimming | unsigned8 | signed8 | unsigned16 | signed16 | time | date | unsigned32 | signed32 | float32 | rgb =>
    simp only [encodesAs, widthOf, maskedTime] at h ⊢
    omega

/-- What a value is encoded as is decoded to the value, for selector 10 where no masked-off bit is set
(47_dpt_general.md R253). -/
theorem decodesAs_of_encodesAs (h9 : d ≠ .float16) (htime : d = .time → maskedTime v.toNat = v.toNat)
    (h : encodesAs mode v o d) : decodesAs o v d := by
  cases d with
  | signed8 | signed16 =>
    have hv := v.isLt
    have hsigned := BitVec.toInt_eq_toNat_cond v
    simp only [encodesAs, decodesAs] at h ⊢
    omega
  | time =>
    obtain ⟨-, rfl⟩ := h
    rw [decodesAs, htime rfl, htime rfl]
  | bool | dimming =>
    obtain ⟨hle, rfl⟩ := h
    exact ⟨hle, rfl⟩
  | unsigned8 | unsigned16 | rgb => exact h.2.symm
  | unsigned32 | signed32 | float32 => exact Eq.symm h
  | date =>
    obtain ⟨_, hdate, rfl⟩ := h
    exact ⟨hdate, rfl⟩
  | float16 => exact absurd rfl h9

/-- What a number is decoded to is encoded as the number, for selector 10 where no masked-off bit is set
(47_dpt_general.md R253). -/
theorem encodesAs_of_decodesAs (h9 : d ≠ .float16) (htime : d = .time → maskedTime o = o) (ho : o < 256 ^ widthOf d)
    (h : decodesAs o v d) : encodesAs mode v o d := by
  cases d with
  | signed8 | signed16 =>
    have hv := v.isLt
    have hsigned := BitVec.toInt_eq_toNat_cond v
    simp only [encodesAs, decodesAs, widthOf] at h ho ⊢
    omega
  | time =>
    have hvalue : v.toNat = o := h.trans (htime rfl)
    exact ⟨hvalue ▸ ho, by rw [hvalue, htime rfl]⟩
  | bool | dimming =>
    obtain ⟨hle, rfl⟩ := h
    exact ⟨hle, rfl⟩
  | unsigned8 | unsigned16 =>
    obtain rfl := h
    exact ⟨Nat.le_of_lt_succ ho, rfl⟩
  | rgb =>
    obtain rfl := h
    exact ⟨ho, rfl⟩
  | unsigned32 | signed32 | float32 => exact Eq.symm h
  | date =>
    obtain ⟨hdate, rfl⟩ := h
    exact ⟨ho, hdate, rfl⟩
  | float16 => exact absurd rfl h9

/-! ### What a completed command leaves -/

/-- A completed DPT.ENC has stored the octets of the encoded number inside the window. -/
theorem exec_encodeOf_eq_next (h : exec (encodeOf d rd ra rb) s = .next t) (ht : t.lasterr = 0) :
    ∃ o, encodesAs s.config.d9Round (s.x.get ra) o d ∧ s.reg rb + widthOf d ≤ s.flen.toNat ∧
      holds t.fb (s.reg rb) (octets (widthOf d) o) := by
  rw [exec_encodeOf] at h
  obtain ⟨u, hu, rfl⟩ := finish_eq_next_of_lasterr h ht
  obtain ⟨o, ho, hw, rfl⟩ := dptEncBody_eq_ok.mp hu
  rw [dptWidth_eq_widthOf] at hw
  refine ⟨o, dptEncode_eq_ok.mp ho, hw, ?_⟩
  rw [← beOctets_eq_octets, ← dptWidth_eq_widthOf]
  exact (storedAt_writeOctets _ _ _).1

/-- A completed DPT.DEC has found octets of the type's width inside the window, and written the value that their number
is decoded to. -/
theorem exec_decodeOf_eq_next (h : exec (decodeOf d rd ra rb) s = .next t) (ht : t.lasterr = 0) :
    ∃ p, holds s.fb (s.reg ra) p ∧ p.length = widthOf d ∧ s.reg ra + widthOf d ≤ s.flen.toNat ∧
      decodesAs (beNat p) (t.x.get rd) d := by
  rw [exec_decodeOf] at h
  obtain ⟨u, hu, rfl⟩ := finish_eq_next_of_lasterr h ht
  obtain ⟨-, -, o, v, hread, hv, rfl⟩ := dptDecBody_eq_ok.mp hu
  rw [dptWidth_eq_widthOf] at hread
  obtain ⟨hw, p, hp, rfl⟩ := memRead_eq_ok.mp hread
  obtain ⟨hlen, hholds⟩ := Memory.readOctets_eq_ok.mp hp
  refine ⟨p, hholds, hlen, hw, ?_⟩
  rw [State.complete_x, State.setReg_get_self]
  exact (dptDecode_eq_ok (hlen ▸ beNat_lt p)).mp hv

/-- Three octets that keep to 5, 6 and 6 bits are not changed by the time mask (47_dpt_general.md R268). -/
theorem maskedTime_beNat {p : List Byte} (hlen : p.length = 3)
    (h : ∀ o0 o1 o2, p = [o0, o1, o2] → o0.toNat < 32 ∧ o1.toNat < 64 ∧ o2.toNat < 64) :
    maskedTime (beNat p) = beNat p := by
  obtain ⟨o0, o1, o2, rfl⟩ := List.length_eq_three.mp hlen
  obtain ⟨h0, h1, h2⟩ := h o0 o1 o2 rfl
  simp only [maskedTime, beNat, List.foldl]
  omega

/-! ### Selectors outside the thirteen -/

/-- The check of the unused fields of DPT.ENC and DPT.DEC, which use all but `rc` (30_encoding.md R83, R86). -/
theorem onlyUses_of_rc_eq_zero {f : Fields} (hrc : f.rc = 0) (r : Except Reject Instr) :
    onlyUses f [.rd, .ra, .rb, .imm] r = r := by
  simp [onlyUses, unusedZero, hrc]

theorem fields_rc_eq_zero {w : Word} (h : w.toNat / 256 % 16 = 0) : (fields w).rc = 0 := by
  simp [fields, bits, Nat.shiftRight_eq_div_pow, h]

/-- A word of DPT.ENC's opcode decodes for every selector (30_encoding.md R83, R85). -/
theorem decode_of_op_dptEnc {w : Word} (hop : w.toNat / 2 ^ 24 = 0x60) (hrc : w.toNat / 256 % 16 = 0) :
    decode w = .ok (decodeDptEnc (fields w)) := by
  rw [decode, decodeFields, (fields_op w).trans hop]
  exact onlyUses_of_rc_eq_zero (fields_rc_eq_zero hrc) _

/-- A word of DPT.DEC's opcode decodes for every selector (30_encoding.md R83, R85). -/
theorem decode_of_op_dptDec {w : Word} (hop : w.toNat / 2 ^ 24 = 0x61) (hrc : w.toNat / 256 % 16 = 0) :
    decode w = .ok (decodeDptDec (fields w)) := by
  rw [decode, decodeFields, (fields_op w).trans hop]
  exact onlyUses_of_rc_eq_zero (fields_rc_eq_zero hrc) _

/-- A command that always raises an error does so as an issued word, and the word is recorded (60_exceptions.md R326). -/
theorem step_of_exec_eq_raised {i : Instr} {w : Word} {rest : List HostAction} {k : Nat} (hs : s.host = .issue w :: rest)
    (hw : decode w = .ok i) (h : ∀ s, exec i s = .next (raised s k (encode i))) :
    step s = .next (raised { s with host := rest } k w) := by
  rw [stepRunsTheIssuedCommand.1 s w rest i hs hw, h, (encodeOfDecodeIsIdentity w i hw).2]

end Sys2Proof.Machine
end

section
/-! The obligations of 47_dpt_general.md. -/

namespace Sys2Proof.Machine

open Sys2Proof.Claims

/-- Settles O22: a completed DPT.ENC has stored as many octets as the type is wide; an error writes no octet. -/
theorem dptEncKeepsOtherOctets : Obligations.DptEncKeepsOtherOctets := by
  unfold Obligations.DptEncKeepsOtherOctets
  intro d rd ra rb s t h a ha
  rw [exec_encodeOf] at h
  rcases finish_eq_next h with ⟨u, hu, rfl⟩ | ⟨e, _, rfl⟩
  · obtain ⟨o, _, _, rfl⟩ := dptEncBody_eq_ok.mp hu
    exact Memory.readByte_writeOctets_outside (by rwa [length_beOctets, dptWidth_eq_widthOf])
  · rfl

/-- Settles O56: the octets are read as their number, and the conversion gives the value it is decoded to. -/
theorem dptDecodeResults : Obligations.DptDecodeResults := by
  unfold Obligations.DptDecodeResults
  intro d s rd ra rb o v ho hv hp hlen hw
  rw [exec_decodeOf, dptDecBody_of_holds hw hlen ho hp, (dptDecode_eq_ok ho).mpr hv]
  rfl

/-- Settles O57: DPT.ENC checks the value and then the window, DPT.DEC the window, the length and then the octets. -/
theorem dptErrorsInOrder : Obligations.DptErrorsInOrder := by
  unfold Obligations.DptErrorsInOrder
  intro d s rd ra rb
  refine ⟨exec_encodeOf_of_not_encodesAs, fun o => exec_encodeOf_of_gt, fun hshort => ?short, fun hw hlong => ?long,
    fun o => exec_decodeOf_of_not_decodesAs⟩
  case short =>
    rw [exec_decodeOf]
    exact finish_of_raise (dptDecBody_of_short hshort)
  case long =>
    rw [exec_decodeOf]
    exact finish_of_raise (dptDecBody_of_long hw hlong)

/-- Settles O58: the first command leaves the octets, or the value, that the second one's result is stated for. -/
theorem dptEncodeAndDecodeAreInverse : Obligations.DptEncodeAndDecodeAreInverse := by
  unfold Obligations.DptEncodeAndDecodeAreInverse
  intro d s t u rd ra rb re rp rq h9 hflen
  refine ⟨fun h ht htime hfb hrp hrq => ?decodeAfterEncode, fun h ht htime hrp hrq => ?encodeAfterDecode⟩
  case decodeAfterEncode =>
    obtain ⟨o, ho, hw, hp⟩ := exec_encodeOf_eq_next h ht
    have hmasked (hd : d = .time) : maskedTime (s.x.get ra).toNat = (s.x.get ra).toNat :=
      (and_timeMask _).symm.trans (congrArg BitVec.toNat (htime hd))
    refine dptDecodeResults d u re rp rq o _ (lt_of_encodesAs h9 ho) (decodesAs_of_encodesAs h9 hmasked ho) ?_ hrq ?_
    · rwa [hrp, hfb]
    · rwa [hrp, hflen]
  case encodeAfterDecode =>
    obtain ⟨p, hp, hlen, hw, hv⟩ := exec_decodeOf_eq_next h ht
    have hmasked (hd : d = .time) : maskedTime (beNat p) = beNat p :=
      maskedTime_beNat (hlen.trans (congrArg widthOf hd)) fun o0 o1 o2 h => htime hd o0 o1 o2 (h ▸ hp)
    have ho : encodesAs u.config.d9Round (u.x.get rp) (beNat p) d :=
      hrp ▸ encodesAs_of_decodesAs h9 hmasked (hlen ▸ beNat_lt p) hv
    obtain ⟨m, hm, hstored, -⟩ := dptEncodeResults d u re rp rq (beNat p) ho (by rwa [hrq, hflen])
    rw [hrq, ← hlen, octets_beNat] at hstored
    refine ⟨m, hm, fun k hk => ?_⟩
    rw [← hlen] at hk
    exact (hstored k hk).trans (hp k hk).symm

/-- Settles O59: the meaning of either command is to raise, and a word with such a selector decodes to it. -/
theorem unknownSelectorsRaiseUnsupportedType : Obligations.UnknownSelectorsRaiseUnsupportedType := by
  unfold Obligations.UnknownSelectorsRaiseUnsupportedType
  refine ⟨fun s rd ra rb sel => ⟨⟨_, rfl⟩, ⟨_, rfl⟩⟩, fun s w rest hs hop hrc hsel => ?_⟩
  have hundefined : (fields w).imm.toNat ∉ definedSelectors := by rwa [fields_imm_toNat]
  rcases hop with hop | hop
  · have hw := decode_of_op_dptEnc hop hrc
    rw [decodeDptEnc_of_not_defined hundefined] at hw
    exact step_of_exec_eq_raised hs hw fun _ => rfl
  · have hw := decode_of_op_dptDec hop hrc
    rw [decodeDptDec_of_not_defined hundefined] at hw
    exact step_of_exec_eq_raised hs hw fun _ => rfl

end Sys2Proof.Machine
end

section
/-! The obligations of 60_exceptions.md. -/

namespace Sys2Proof.Machine

open Sys2Proof.Claims

/-- Settles O13: a command that does not complete records an error of its body, which raises only those of its row. -/
theorem eachCommandRaisesOnlyItsErrors : Obligations.EachCommandRaisesOnlyItsErrors := by
  unfold Obligations.EachCommandRaisesOnlyItsErrors
  intro i s t hi h
  obtain ⟨x, hexec, hraises⟩ := exec_raisesOnly hi s
  rw [hexec] at h
  rcases finish_eq_next h with ⟨u, _, rfl⟩ | ⟨e, he, rfl⟩
  · exact .inl u.complete_lasterr
  · exact .inr ⟨e.code, hraises e he, rfl⟩

/-- Settles O11: an illegal word raises IllegalCommand, a command that completes clears LASTERR, and one that raises
records its own word; the error record does not reach the host's list. -/
theorem failureWritesOnlyTheErrorRecord : Obligations.FailureWritesOnlyTheErrorRecord := by
  unfold Obligations.FailureWritesOnlyTheErrorRecord
  intro s t w rest hs hstep hfailed
  have hissue : issueWord w { s with host := rest } = .next t := (step_of_host_cons hs).symm.trans hstep
  have hraised : ∃ k, 1 ≤ k ∧ k ≤ 6 ∧ t = raised { s with host := rest } k w := by
    cases hw : decode w with
    | error r =>
      rw [issueWord, hw] at hissue
      cases hissue
      exact ⟨6, by decide, by decide, rfl⟩
    | ok i =>
      rw [issueWord_of_decode hw] at hissue
      rcases exec_eq_next hissue with ⟨u, _, rfl⟩ | ⟨e, rfl⟩
      · exact absurd u.complete_lasterr hfailed
      · exact exists_raiseError_encode_eq_raised hw _ e
  refine ⟨hraised, fun v more i hrest hv => ?next⟩
  obtain ⟨k, _, _, rfl⟩ := hraised
  exact stepRunsTheIssuedCommand.1 _ v more i hrest hv

/-- Settles O12: a command that does not raise completes; only CSRW FAULTS writes the error record, and CSRR reads it
before it is cleared. -/
theorem successClearsLasterrAndKeepsHistory : Obligations.SuccessClearsLasterrAndKeepsHistory := by
  unfold Obligations.SuccessClearsLasterrAndKeepsHistory
  intro s t w rest i hs hw hstep hsuccess
  have hexec : exec i { s with host := rest } = .next t :=
    (stepRunsTheIssuedCommand.1 s w rest i hs hw).symm.trans hstep
  rcases exec_eq_next hexec with ⟨u, hu, rfl⟩ | ⟨e, rfl⟩
  · obtain ⟨herrcmd, hfaults⟩ := hu.errcmd_faults
    refine ⟨rfl, herrcmd, hfaults, ?cleared, ?delivered⟩
    case cleared =>
      rintro ra rfl
      exact (congrArg State.faults (Host.Outcome.next.inj hexec)).symm
    case delivered =>
      rintro rd rfl
      have hx := congrArg State.x (Host.Outcome.next.inj hexec)
      exact hx ▸ State.setReg_get_self { s with host := rest } rd s.lasterr
  · exact absurd (exists_raiseError_encode_eq_raised hw _ e) hsuccess

end Sys2Proof.Machine
end
